-- ==== Sys2Proof/Word.lean ====
section
/-! DEFINITION. The word types of the tnc1101 framer (`00_scope.md` R6): bytes, nibbles, byte sequences. -/

namespace Sys2Proof

/-- A byte, "8 bits, an unsigned integer 0..255" (R6). -/
abbrev Byte := BitVec 8

/-- Half a byte: the two nibbles of the KISS command byte (R80). -/
abbrev Nibble := BitVec 4

/-- A byte sequence: "a finite list of bytes indexed from 0" (R6). -/
abbrev Bytes := List Byte

end Sys2Proof
end

