-- ==== Sys2Proof/Config.lean ====
section
/-! DEFINITION. What an implementation fixes (`00_scope.md` R5, R12) and the free values the spec leaves open. -/

namespace Sys2Proof

/-- `IRQ_ORDER` (R5, R293): which handler runs first when both lines are requested. -/
inductive IrqOrder where
  | pktFirst
  | thrFirst
  | any
deriving DecidableEq, Repr

/-- The parameters of R5 that are not configuration registers. `TYPE_CODE` is fixed at the values of R71
(`Sys2Proof.typeCode`), `CNT_W` at 8 and `TICK` at 10 µs, as R5 gives them. -/
structure Params where
  /-- `POLL_SLEEP`: ticks slept between two polls of a `READ_BLOCK`. -/
  pollSleep : Nat
  /-- `FIFO_SIZE`: capacity in bytes of each radio FIFO. -/
  fifoSize : Nat
  /-- `TX_CHUNK`: bytes written to the TX FIFO per threshold interrupt. -/
  txChunk : Nat
  /-- `RX_CHUNK`: bytes read from the RX FIFO per threshold interrupt. -/
  rxChunk : Nat
  /-- `TX_THR`: TX FIFO level below which the threshold line is low. -/
  txThr : Nat
  /-- `RX_THR`: RX FIFO level at or above which the threshold line is high. -/
  rxThr : Nat
  /-- `PKT_BIT`: the packet line's bit in the GPIO registers. -/
  pktBit : Fin 8
  /-- `THR_BIT`: the threshold line's bit in the GPIO registers. -/
  thrBit : Fin 8
  /-- `IRQ_ORDER`. -/
  irqOrder : IrqOrder
  /-- `PARMS_LEN`: the size of the RadioParms record the device accepts. -/
  parmsLen : Nat
  /-- `STATUS_LEN`: the length of the RADIO_STATUS reply's payload. -/
  statusLen : Nat
  /-- `KISS_UNIT`: ticks per unit of a KISS delay value. -/
  kissUnit : Nat
  /-- `RBUF_CAP`: capacity of the radio-side buffer. -/
  rbufCap : Nat
  /-- `TBUF_CAP`: capacity of the terminal-side buffer. -/
  tbufCap : Nat
deriving DecidableEq, Repr

/-- The ranges of R5 and the constraints of R12, one test each. `TX_CHUNK ≤ FIFO_SIZE − TX_THR + 1` is written as a sum. -/
def Params.checks (p : Params) : List Bool :=
  [ decide (1 ≤ p.pollSleep), decide (2 ≤ p.fifoSize), decide (1 ≤ p.txThr), decide (p.txThr + 1 ≤ p.fifoSize),
    decide (1 ≤ p.txChunk), decide (p.txChunk + p.txThr ≤ p.fifoSize + 1), decide (1 ≤ p.rxThr),
    decide (p.rxThr ≤ p.fifoSize), decide (1 ≤ p.rxChunk), decide (p.rxChunk ≤ p.rxThr), decide (p.pktBit ≠ p.thrBit),
    decide (1 ≤ p.parmsLen), decide (p.parmsLen ≤ 255), decide (p.statusLen ≤ 255), decide (1 ≤ p.kissUnit),
    decide (1 ≤ p.rbufCap), decide (1 ≤ p.tbufCap) ]

/-- Every test holds. -/
def Params.ok (p : Params) : Bool := p.checks.all id

/-- The values `95_test_vectors.md` section 0 uses for the OPEN parameters, with the defaults of R5 for
`FIFO_SIZE` and `KISS_UNIT`. DESIGN CHOICE (log entry 2): R5 leaves them open. -/
def Params.vectors : Params where
  pollSleep := 1
  fifoSize := 64
  txChunk := 32
  rxChunk := 32
  txThr := 33
  rxThr := 32
  pktBit := 0
  thrBit := 1
  irqOrder := .any
  parmsLen := 2
  statusLen := 2
  kissUnit := 1000
  rbufCap := 4096
  tbufCap := 4096

/-- FREE VALUE (log entry 3): the byte whose bits other than `[PKT]` and `[THR]` a read of a GPIO register returns; R34:
"a read of them returns any value". Its argument is the running number of the read. -/
opaque Config.freeGpioBits : Nat → Byte

/-- FREE VALUE (log entry 4): byte `i` of the radio's status-register snapshot; R63: "content opaque, chosen by the radio".
The first argument is the running number of the read, the second is `i`. -/
opaque Config.freeSnapshotByte : Nat → Nat → Byte

end Sys2Proof
end

