-- ==== Sys2Proof/Syntax.lean ====
section
/-! DEFINITION. The instructions of the tnc1101 framer: one constructor of `Instr` per row of `spec/opcode_table.json`. -/

namespace Sys2Proof

/-- The eight block type names (`30_encoding.md` R71). -/
inductive BlockType where
  | init
  | tx
  | rx
  | rxCancel
  | radioStatus
  | echoTest
  | txKo
  | rxKo
deriving DecidableEq, Repr

/-- The block types that are legal host-to-device (R71, R72): the operand of `SEND_COMMAND` (R100). -/
inductive Cmd where
  | init
  | tx
  | rx
  | rxCancel
  | radioStatus
  | echoTest
deriving DecidableEq, Repr

/-- The block type a command is sent with (R71). -/
def Cmd.blockType : Cmd → BlockType
  | .init => .init
  | .tx => .tx
  | .rx => .rx
  | .rxCancel => .rxCancel
  | .radioStatus => .radioStatus
  | .echoTest => .echoTest

/-- The direction a block travels on the link (R70, R71). -/
inductive Dir where
  | h2d
  | d2h
deriving DecidableEq, Repr

/-- The two sides of the scheduler: radio (`R`) and terminal (`T`) (R227). -/
inductive Side where
  | r
  | t
deriving DecidableEq, Repr

/-- The two interrupt lines: packet boundary and FIFO threshold (R291). -/
inductive Line where
  | pkt
  | thr
deriving DecidableEq, Repr

/-- The inputs of the streamer's transition function (R82): five events and the two command inputs. -/
inductive Event where
  | pktRise
  | pktFall
  | thrRise
  | thrFall
  | cancel
  | txStart (payload : Bytes)
  | rxStart (rxlen : Byte)
deriving DecidableEq, Repr

/-- The ordinals of R82; the two command inputs have none. -/
def Event.ordinal : Event → Option Nat
  | .pktRise => some 0
  | .pktFall => some 1
  | .thrRise => some 2
  | .thrFall => some 3
  | .cancel => some 4
  | .txStart _ => none
  | .rxStart _ => none

/-- What `INTERPRET_COMMAND` returns (R194). -/
inductive KissCmd where
  | data (port : Nibble) (bytes : Bytes)
  | config (cmd port : Nibble) (value : Option Byte)
  | empty
deriving DecidableEq, Repr

/-- The instructions: one constructor per row of the opcode table, in the table's order.

* A **command block** (`init` … `echoTest`) is executed by the device when it has received the whole block (R103, R104).
* A **reply block** (`initEcho` … `rxKo`) is executed by the host when a `READ_BLOCK` has read the whole block (R101, R113).
* A **status code** (`stOk` … `stRxOverflow`) is executed by the end-of-packet handler that reports it (R155, R158).
* A **KISS special byte** is executed by the byte-serial reading of a frame (R191).
* A **KISS command** is executed by `KISS_PROCESS` (R202).
* A **streamer event** and an **operation** are executed by the agent that runs them (R9), or called directly by a harness. -/
inductive Instr where
  -- host-to-device command blocks
  | init (payload : Bytes)
  | tx (payload : Bytes)
  | rx (payload : Bytes)
  | rxCancel (payload : Bytes)
  | radioStatus (payload : Bytes)
  | echoTest (payload : Bytes)
  -- device-to-host blocks
  | initEcho (payload : Bytes)
  | txAck (payload : Bytes)
  | rxAck (payload : Bytes)
  | rxCancelEcho (payload : Bytes)
  | radioStatusReply (payload : Bytes)
  | echoTestReply (payload : Bytes)
  | txKo (payload : Bytes)
  | rxKo (payload : Bytes)
  -- a block of a type the direction does not know
  | blockReserved (dir : Dir) (ty : Byte) (payload : Bytes)
  -- status codes
  | stOk
  | stTxUnderflow
  | stTxNotEmpty
  | stRxOverflow
  -- KISS special bytes
  | fend
  | fesc
  | tfend
  | tfesc
  -- KISS commands
  | kissData (port : Nibble) (bytes : Bytes)
  | kissTxdelay (port : Nibble) (value : Option Byte)
  | kissPersist (port : Nibble) (value : Option Byte)
  | kissSlottime (port : Nibble) (value : Option Byte)
  | kissTxtail (port : Nibble) (value : Option Byte)
  | kissAbort (port : Nibble) (value : Option Byte)
  | kissUnlisted (port cmd : Nibble) (value : Option Byte)
  -- streamer events
  | evPktRise
  | evPktFall
  | evThrRise
  | evThrFall
  | evCancel
  | evTxStart (payload : Bytes)
  | evRxStart (rxlen : Byte)
  -- transport operations
  | sendCommand (cmd : Cmd) (payload : Bytes)
  | readBlock (timeout : Nat)
  | hostInit
  | devRecv
  | devDispatch (ty : Byte) (payload : Bytes)
  | devSend
  -- segmentation operations
  | sendPacket (payload : Bytes) (b delay : Nat)
  | sendBlock (cd : Byte) (chunk : Bytes)
  | receivePacket (b tFirst tInter : Nat) (armed : Bool)
  | receiveBlock (b : Byte) (timeout : Nat) (skipSend : Bool)
  -- streamer operations
  | strStep (ev : Event)
  | stopLines
  | composeStatus (ty : BlockType) (st : Byte)
  | composeData (ty : BlockType) (bytes : Bytes)
  -- KISS operations
  | tokenize (buf : Bytes)
  | unescape (frame : Bytes)
  | escape (payload : Bytes)
  | interpretCommand (frame : Bytes)
  | kissProcess (buf : Bytes)
  -- scheduler operations
  | schedStart
  | schedLoop
  | step1
  | step2
  | step3
  | step4
  | step5
  | elapsed (w : Nat)
  | clearState (side : Side)
  | armRx
  | cancelRx
  | flushR
  | flushT
  -- interrupt handlers
  | isrPkt
  | isrThr
deriving DecidableEq, Repr

end Sys2Proof
end

