-- ==== Sys2Proof/Machine/State.lean ====
section
/-! DEFINITION. The machine's state (`10_state.md`): the host half, the device half, the channels, the reference radio, and the
model's own fields (who moves next, the host's control list, the last result, the free-value counter); its reset; the reasons
a step can stop. Every field is plain data. -/

namespace Sys2Proof.Machine

/-! ## Failures and the log (R280, R11) -/

/-- The causes of R280, in its order. They are results of an operation, not stops of the machine. `fifoUnderflow`,
`fifoNotEmpty` and `fifoOverflow` reach the host as KO blocks; `deviceOpen` is outside the block (R286); `ignoredCmd` is a
name for traces only (R289). -/
inductive Cause where
  | timeout
  | crc
  | seq
  | fifoUnderflow
  | fifoNotEmpty
  | fifoOverflow
  | ko
  | radioInit
  | deviceOpen
  | notReceived
  | badReply
  | bufOverflow
  | refused
  | kissNosync
  | cancelledRx
  | ignoredCmd
deriving DecidableEq, Repr

/-- An event on the `LOG` port (R11), with the information R280 gives it. -/
inductive LogEvent where
  | timeout
  | crc
  | seq (cd : Byte)
  | ko (payload : Bytes)
  | radioInitAttempt
  | radioInitPersistent
  | notReceived
  | badReply (info : Byte)
  | bufOverflow (len : Nat)
  | kissNosync
  | cancelledRx (ty : Byte)
deriving DecidableEq, Repr

/-- The result of the host's last operation (R10): `Ok` with its value, `Timeout`, or `Fail(E, info)`. -/
inductive Result where
  /-- no operation has ended yet -/
  | nothing
  | ok
  /-- `SEND_COMMAND`'s `bytes_written` (R100) -/
  | wrote (n : Nat)
  /-- `READ_BLOCK`'s block (R101), and a command's good answer (R113) -/
  | block (ty size : Byte) (payload : Bytes)
  /-- `RECEIVE_BLOCK`'s `Ok(cd, data)` (R134) -/
  | received (cd : Byte) (data : Bytes)
  /-- `RECEIVE_PACKET`'s `Ok(payload)` (R133) -/
  | packet (payload : Bytes)
  | timeout
  | fail (cause : Cause) (info : Bytes)
  /-- `TOKENIZE`'s answer (R190) -/
  | token (t : Option (Bytes × Bytes))
  /-- the byte sequence `UNESCAPE`, `ESCAPE` or `KISS_PROCESS` returns -/
  | bytes (b : Bytes)
  /-- `INTERPRET_COMMAND`'s answer (R194) -/
  | command (c : KissCmd)
  /-- `elapsed(W)` (R226) -/
  | flag (b : Bool)
deriving DecidableEq, Repr

/-! ## The host half -/

/-- The scheduler tri-state (R23, R236). -/
inductive Tri where
  | idle
  | rxActive
  | txActive
deriving DecidableEq, Repr

/-- `SCH` (R23), with the scheduler's step number (R21 (c)). -/
structure Sch where
  tri : Tri
  tlast : Nat
  rxtrig : Bool
  txtrig : Bool
  rbuf : Bytes
  tbuf : Bytes
  armed : Bool
  halt : Bool
  /-- the number, 1 to 5, of the step the loop is at (R21 (c)) -/
  stepNo : Nat
deriving DecidableEq, Repr

/-- The TNC configuration registers (R24). -/
structure Tnc where
  keyup : Nat
  persist : Byte
  slottime : Byte
  keydown : Nat
deriving DecidableEq, Repr

/-- The scheduler and transport configuration registers (R25). -/
structure Cfg where
  b : Nat
  tAck : Nat
  tFirst : Nat
  tInter : Nat
  tCancel : Nat
  tInit : Nat
  tStatus : Nat
  blkDelay : Nat
  radioWin : Nat
  serialWin : Nat
  parms : Bytes
deriving DecidableEq, Repr

/-- The host transport reader `TRH` (R26). -/
structure Trh where
  acc : Bytes
  expv : Bool
  exp : Byte
  budget : Nat
deriving DecidableEq, Repr

/-- The segmentation engine `SEG` (R27). -/
structure Seg where
  nblk : Nat
  idx : Nat
  expcnt : Nat
  nread : Nat
  asm : Bytes
deriving DecidableEq, Repr

/-- The working variables of the KISS operations (R191, R202): the model's own, since the spec's functions keep them as
locals. `frame` is the token at hand, `rem` the remainder, `esc` whether a `FESC` waits for its second byte, `out` the
unescaped bytes so far. -/
structure Kiss where
  frame : Bytes
  rem : Bytes
  esc : Bool
  out : Bytes
deriving DecidableEq, Repr

/-- What the host still has to do, one entry per atomic step (R9): a call of an operation, or what follows a call once it has
answered. The entry at the head is next. -/
inductive Task where
  /-- call an operation -/
  | call (i : Instr)
  /-- one poll of the `READ_BLOCK` in progress (R101) -/
  | poll
  /-- the sleep between two polls (R101) -/
  | pollSleep
  /-- `Sleep(t)` (R8) -/
  | sleep (t : Nat)
  /-- send the INIT block of attempt `n` (R114) -/
  | initAttempt (n : Nat)
  /-- the answer to the INIT of attempt `n` is awaited (R114) -/
  | awaitInit (n : Nat)
  /-- `SEND_BLOCK` awaits its ack (R132) -/
  | awaitTx
  /-- `RECEIVE_BLOCK` awaits its ack (R134) -/
  | awaitRx
  /-- `CANCEL_RX` awaits the echo (R229) -/
  | awaitCancel
  /-- send command `c` and read its answer (R113; log entry 30) -/
  | exchange (c : Cmd) (payload : Bytes)
  /-- the answer to command `c` is awaited (R113) -/
  | awaitReply (c : Cmd)
  /-- `SEND_PACKET`: send block `SEG.IDX` (R131) -/
  | packetBlock (payload : Bytes) (b delay : Nat)
  /-- `SEND_PACKET`: the block has been answered (R131) -/
  | packetSent (payload : Bytes) (b delay : Nat)
  /-- `RECEIVE_PACKET`: a block has been answered (R133) -/
  | blockReceived (b tInter : Nat)
  /-- `STEP1`: `RECEIVE_PACKET` has answered (R221) -/
  | step1Done
  /-- `FLUSH_T`: reception is cancelled, run the framer (R231) -/
  | flushTProcess
  /-- `FLUSH_T`: `SEND_PACKET` has answered (R231) -/
  | flushTSent
  /-- `FLUSH_T`: clear state and re-arm (R231) -/
  | flushTEnd
  /-- the end of an iteration of `SCHED_LOOP` (R220) -/
  | loopTail
deriving DecidableEq, Repr

/-- The host half (R20). `ctl` and `res` are the model's own: the host's pending work and the last operation's result. -/
structure HostHalf where
  sch : Sch
  tnc : Tnc
  cfg : Cfg
  trh : Trh
  seg : Seg
  kiss : Kiss
  ctl : List Task
  res : Result
deriving DecidableEq, Repr

/-! ## The device half -/

/-- The device transport receiver `TRD` (R28). -/
structure Trd where
  acc : Bytes
  expv : Bool
  exp : Byte
deriving DecidableEq, Repr

/-- The streamer mode (R30). -/
inductive Mode where
  | idle
  | txStreaming
  | rxStreaming
deriving DecidableEq, Repr

/-- The streamer context `STR` (R30 to R33). -/
structure Str where
  mode : Mode
  cntPktRise : Byte
  cntPktFall : Byte
  cntThrRise : Byte
  cntThrFall : Byte
  txbuf : Bytes
  txlen : Nat
  txpos : Nat
  rxbuf : Bytes
  rxlen : Byte
deriving DecidableEq, Repr

/-- The GPIO interrupt registers (R34). Only bits `PKT_BIT` and `THR_BIT` have a meaning. -/
structure Gpio where
  pin : Byte
  ifg : Byte
  ie : Byte
  ies : Byte
deriving DecidableEq, Repr

/-- The device half (R20). `outq` holds whole composed blocks (R28). -/
structure DevHalf where
  trd : Trd
  outq : List Bytes
  parms : Bytes
  inited : Bool
  str : Str
  gpio : Gpio
  gie : Bool
deriving DecidableEq, Repr

/-! ## The channels and the radio -/

/-- A link channel (R36, R38 (a)): the bytes the reader may take, and the bytes put and still in flight. -/
structure Chan where
  avail : Bytes
  flight : Bytes
deriving DecidableEq, Repr

/-- The reference radio's operating state (R301). -/
inductive RState where
  | idle
  | tx
  | rx
deriving DecidableEq, Repr

/-- The radio (R37) as the reference radio of R301 and R302. `airSel` is the environment's choice of the next `AIRLEN`
(`none`: a matched radio), `config` the record last handed over by `RadioConfigure`, `aired` every byte sent so far. -/
structure Radio where
  txFifo : Bytes
  rxFifo : Bytes
  txUnf : Bool
  rxOvf : Bool
  rstate : RState
  airLen : Nat
  sent : Nat
  synced : Bool
  inPkt : Bool
  q : Bytes
  airSel : Option Nat
  config : Bytes
  aired : Bytes
deriving DecidableEq, Repr

/-- Who takes the next step (R9), with what the environment chooses in it. -/
inductive Turn where
  /-- the host's next atomic step -/
  | host
  /-- `DEV_MAIN` takes one byte from the link (R103) -/
  | devRecv
  /-- `DEV_MAIN` moves one composed block to the link (R112) -/
  | devSend
  /-- the packet line's handler (R294) -/
  | isrPkt
  /-- the threshold line's handler (R294) -/
  | isrThr
  /-- the radio's next step (R301, R302) -/
  | radio
  /-- a packet from the air, with the status pair the radio appends (R302) -/
  | air (air : Bytes) (rssi crclqi : Byte)
  /-- the environment chooses the next transmission's `AIRLEN` (R301) -/
  | airLen (a : Option Nat)
  /-- `LINK` makes the next `k` bytes of `L_H2D` available (R9) -/
  | linkH2D (k : Nat)
  /-- `LINK` makes the next `k` bytes of `L_D2H` available (R9) -/
  | linkD2H (k : Nat)
  /-- `TERMINAL` puts bytes on `TERM_IN` (R9) -/
  | termPut (b : Bytes)
  /-- `TERMINAL` takes `k` bytes from `TERM_OUT` (R9) -/
  | termTake (k : Nat)
  /-- `CLOCK` advances `now` by `n` ticks (R8) -/
  | tick (n : Nat)
  /-- a harness calls an instruction directly (R150: "in a host-side simulation/test harness it is invoked directly") -/
  | direct (i : Instr)
  /-- the host is asked to send a command and read its answer, RADIO_STATUS or ECHO_TEST (R113; log entry 30) -/
  | exchange (c : Cmd) (payload : Bytes)
  /-- the device half is powered up (R330 (b), R332) -/
  | devPowerUp
  /-- the host process starts, `KEYUP` and `KEYDOWN` as the external configuration supplies them (R330 (a), R39) -/
  | hostStart (keyup keydown : Nat)
deriving DecidableEq, Repr

/-- The whole machine. `par` are the parameters of R5; `agenda` says whose turn the next steps are, and when it is empty the
prompt schedule of `95_test_vectors.md` section 0 decides; `freeCtr` counts the reads that returned free values. -/
structure State where
  par : Params
  now : Nat
  host : HostHalf
  dev : DevHalf
  lH2D : Chan
  lD2H : Chan
  termIn : Bytes
  termOut : Bytes
  log : List LogEvent
  radio : Radio
  agenda : List Turn
  freeCtr : Nat
deriving DecidableEq, Repr

/-! ## Stops -/

/-- Why the machine stops. -/
inductive Fault where
  /-- `FifoWrite` past `FIFO_SIZE`; R63: "A model treats it as a fault". Raised by `fifoWrite`. Safe: the spec gives no effect. -/
  | fifoOverfill
  /-- `FifoRead` of more bytes than present; R63: "called only with `n ≤ FifoCount(RXFIFO)`", and
  `93_implementation_defined.md` row 4 says `fault`. Raised by `fifoRead`. Safe, and unreachable: every read is bounded. -/
  | fifoUnderread
deriving DecidableEq, Repr

/-- Why a step is refused. -/
inductive Refusal where
  /-- An instruction without a meaning. Raised by `exec`'s arms only; safe. -/
  | notModelled (mnemonic : String)
  /-- The parameters or the block size break R12: "a model refuses a configuration that breaks a constraint"
  (`93_implementation_defined.md` row 14: `refuse`). Raised by `step`; safe. -/
  | badConfig
deriving DecidableEq, Repr

/-! ## Reset (R39) -/

/-- `SCH` after host process start at time `now` (R39). -/
def Sch.reset (now : Nat) : Sch where
  tri := .idle
  tlast := now
  rxtrig := false
  txtrig := false
  rbuf := []
  tbuf := []
  armed := false
  halt := false
  stepNo := 1

/-- The host half after host process start (R39). The configuration registers hold the values of `95_test_vectors.md`
section 3 (log entry 6); `PERSIST`, `SLOTTIME`, `TRH`, `SEG` are unspecified there and hold zeros (log entry 7). Its pending
work is `SCHED_START` (R332). -/
def HostHalf.reset : HostHalf where
  sch := Sch.reset 0
  tnc := { keyup := 0, persist := 0, slottime := 0, keydown := 0 }
  cfg := { b := 64, tAck := 1000, tFirst := 1000, tInter := 1000, tCancel := 1000, tInit := 1000, tStatus := 1000,
           blkDelay := 0, radioWin := 0, serialWin := 0, parms := [0xAA, 0xBB] }
  trh := { acc := [], expv := false, exp := 0, budget := 0 }
  seg := { nblk := 0, idx := 0, expcnt := 0, nread := 0, asm := [] }
  kiss := { frame := [], rem := [], esc := false, out := [] }
  ctl := [.call .schedStart]
  res := .nothing

/-- The device half after power-up (R39). `DEV.PARMS` is unspecified there and holds zeros (log entry 7). -/
def DevHalf.reset : DevHalf where
  trd := { acc := [], expv := false, exp := 0 }
  outq := []
  parms := [0, 0]
  inited := false
  str := { mode := .idle, cntPktRise := 0, cntPktFall := 0, cntThrRise := 0, cntThrFall := 0, txbuf := [], txlen := 0,
           txpos := 0, rxbuf := [], rxlen := 0 }
  gpio := { pin := 0, ifg := 0, ie := 0, ies := 0 }
  gie := true

/-- The radio at start: "idle with both FIFOs empty and `TXUNF` = `RXOVF` = 0" (R39). -/
def Radio.reset : Radio where
  txFifo := []
  rxFifo := []
  txUnf := false
  rxOvf := false
  rstate := .idle
  airLen := 0
  sent := 0
  synced := false
  inPkt := false
  q := []
  airSel := none
  config := []
  aired := []

/-- The machine right after reset: host process start and device power-up together (R39, R330, R332). -/
def State.reset : State where
  par := Params.vectors
  now := 0
  host := HostHalf.reset
  dev := DevHalf.reset
  lH2D := { avail := [], flight := [] }
  lD2H := { avail := [], flight := [] }
  termIn := []
  termOut := []
  log := []
  radio := Radio.reset
  agenda := []
  freeCtr := 0

end Sys2Proof.Machine
end

