-- ==== Sys2Proof/Machine/Flags.lean ====
section
/-! DEFINITION. The one-bit flags (`10_state.md` R22): the bits of the GPIO registers, the interrupt conditions, the window
test. The block has no condition codes ("no carry, zero, sign or overflow flag", R22). -/

namespace Sys2Proof.Machine

/-- Bit `n` of a register. -/
def bitAt (v : Byte) (n : Fin 8) : Bool := v.getLsbD n.val

/-- A register with bit `n` set to `b`, the other bits as they were. -/
def withBit (v : Byte) (n : Fin 8) (b : Bool) : Byte :=
  if b then v ||| (1#8 <<< n.val) else v &&& ~~~(1#8 <<< n.val)

/-- The bit of the GPIO registers a line has: `PKT_BIT` or `THR_BIT` (R34). -/
def lineBit (p : Params) : Line → Fin 8
  | .pkt => p.pktBit
  | .thr => p.thrBit

/-- The bits of the GPIO registers that belong to the block: `[PKT]` and `[THR]` (R34). -/
def lineMask (p : Params) : Byte := (1#8 <<< p.pktBit.val) ||| (1#8 <<< p.thrBit.val)

/-- `PIN[x]`: the line's level (R34). -/
def pinOf (x : Line) (s : State) : Bool := bitAt s.dev.gpio.pin (lineBit s.par x)
/-- `IFG[x]`: a selected edge is pending (R34). -/
def ifgOf (x : Line) (s : State) : Bool := bitAt s.dev.gpio.ifg (lineBit s.par x)
/-- `IE[x]`: the line's interrupt is enabled (R34). -/
def ieOf (x : Line) (s : State) : Bool := bitAt s.dev.gpio.ie (lineBit s.par x)
/-- `IES[x]`: false selects the rising edge, true the falling edge (R34). -/
def iesOf (x : Line) (s : State) : Bool := bitAt s.dev.gpio.ies (lineBit s.par x)

/-- `PIN[x] <- b`: only the line itself does this (R20: `PIN` "is an input and cannot be written"). -/
def setPin (x : Line) (b : Bool) (s : State) : State :=
  { s with dev.gpio.pin := withBit s.dev.gpio.pin (lineBit s.par x) b }
/-- `IFG[x] <- b`. -/
def setIfg (x : Line) (b : Bool) (s : State) : State :=
  { s with dev.gpio.ifg := withBit s.dev.gpio.ifg (lineBit s.par x) b }
/-- `IE[x] <- b`. -/
def setIe (x : Line) (b : Bool) (s : State) : State :=
  { s with dev.gpio.ie := withBit s.dev.gpio.ie (lineBit s.par x) b }
/-- `IES[x] <- b`. -/
def setIes (x : Line) (b : Bool) (s : State) : State :=
  { s with dev.gpio.ies := withBit s.dev.gpio.ies (lineBit s.par x) b }

/-- The interrupt of line `x` is requested: "while `IFG[X]` = 1 and `IE[X]` = 1" (R292). -/
def requested (x : Line) (s : State) : Bool := ifgOf x s && ieOf x s

/-- The handler of line `x` may start: "enabled when GIE = 1 and IFG[X] = 1 and IE[X] = 1" (R294). -/
def isrEnabled (x : Line) (s : State) : Bool := s.dev.gie && requested x s

/-- An edge event is armed: its line is enabled and selects that edge (R163). -/
def armedEdge (x : Line) (falling : Bool) (s : State) : Bool := ieOf x s && (iesOf x s == falling)

/-- `elapsed(W)` (R226). -/
def elapsedW (w : Nat) (s : State) : Bool := decide (w = 0) || decide (s.now - s.host.sch.tlast > w)

/-- A window that is configured and has run out (R225). -/
def forcedW (w : Nat) (s : State) : Bool := decide (w ≠ 0) && decide (s.now - s.host.sch.tlast > w)

/-- The block of the host reader is whole (R101). -/
def Trh.complete (t : Trh) : Bool := t.expv && decide (t.acc.length = t.exp.toNat + 2)

/-- The block of the device receiver is whole (R103). -/
def Trd.complete (t : Trd) : Bool := t.expv && decide (t.acc.length = t.exp.toNat + 2)

/-- The CRC-valid bit of the last byte of a payload (R75). -/
def crcValid (payload : Bytes) : Bool := (payload.getLastD 0).getLsbD 7

/-- `TRI` as its two-bit code (R23). -/
def triCode : Tri → BitVec 2
  | .idle => 0
  | .rxActive => 1
  | .txActive => 2

/-- `MODE` as its two-bit code (R30). -/
def modeCode : Mode → BitVec 2
  | .idle => 0
  | .txStreaming => 1
  | .rxStreaming => 2

end Sys2Proof.Machine
end

