-- ==== Sys2Proof/WellFormed.lean ====
section
/-! DEFINITION. The checks on an instruction's operands: the limits the spec puts on them. -/

namespace Sys2Proof

/-- A block's payload fits its one-byte `size` field (R70): at most 255 bytes. -/
def payloadFits (p : Bytes) : Bool := decide (p.length ≤ 255)

/-- The bytes no row of R71 names in the direction: host-to-device also the two KO types (R83 (a)). -/
def reservedType : Dir → Byte → Bool
  | .h2d, ty => decide (ty.toNat = 0) || decide (7 ≤ ty.toNat)
  | .d2h, ty => decide (ty.toNat = 0) || decide (9 ≤ ty.toNat)

/-- The KISS command codes the source does not list: 5 to 14 (R81, R201). -/
def unlistedCode (cmd : Nibble) : Bool := decide (5 ≤ cmd.toNat) && decide (cmd.toNat ≤ 14)

/-- The operand of `TX_START`: "1..255 bytes, countdown first" (R151). -/
def txPayload (p : Bytes) : Bool := decide (1 ≤ p.length) && decide (p.length ≤ 255)

/-- The event's operand is in its range (R151, R152). -/
def Event.wf : Event → Bool
  | .txStart p => txPayload p
  | _ => true

/-- The instruction's operands are in the ranges the spec gives them. The operations that answer an operand outside its
limits with `Fail(REFUSED)` themselves (`SEND_COMMAND`, `SEND_PACKET`, `SEND_BLOCK`, `RECEIVE_PACKET`, `RECEIVE_BLOCK`) have no
check here. -/
def Instr.wf : Instr → Bool
  | .init p => payloadFits p
  | .tx p => payloadFits p
  | .rx p => payloadFits p
  | .rxCancel p => payloadFits p
  | .radioStatus p => payloadFits p
  | .echoTest p => payloadFits p
  | .initEcho p => payloadFits p
  | .txAck p => payloadFits p
  | .rxAck p => payloadFits p
  | .rxCancelEcho p => payloadFits p
  | .radioStatusReply p => payloadFits p
  | .echoTestReply p => payloadFits p
  | .txKo p => payloadFits p
  | .rxKo p => payloadFits p
  | .blockReserved dir ty p => reservedType dir ty && payloadFits p
  | .stOk => true
  | .stTxUnderflow => true
  | .stTxNotEmpty => true
  | .stRxOverflow => true
  | .fend => true
  | .fesc => true
  | .tfend => true
  | .tfesc => true
  | .kissData _ _ => true
  | .kissTxdelay _ _ => true
  | .kissPersist _ _ => true
  | .kissSlottime _ _ => true
  | .kissTxtail _ _ => true
  | .kissAbort _ _ => true
  | .kissUnlisted _ cmd _ => unlistedCode cmd
  | .evPktRise => true
  | .evPktFall => true
  | .evThrRise => true
  | .evThrFall => true
  | .evCancel => true
  | .evTxStart p => txPayload p
  | .evRxStart _ => true
  | .sendCommand _ _ => true
  | .readBlock _ => true
  | .hostInit => true
  | .devRecv => true
  | .devDispatch _ p => payloadFits p
  | .devSend => true
  | .sendPacket _ _ _ => true
  | .sendBlock _ _ => true
  | .receivePacket _ _ _ _ => true
  | .receiveBlock _ _ _ => true
  | .strStep ev => ev.wf
  | .stopLines => true
  | .composeStatus _ _ => true
  | .composeData _ bytes => payloadFits bytes
  | .tokenize _ => true
  | .unescape _ => true
  | .escape _ => true
  | .interpretCommand _ => true
  | .kissProcess _ => true
  | .schedStart => true
  | .schedLoop => true
  | .step1 => true
  | .step2 => true
  | .step3 => true
  | .step4 => true
  | .step5 => true
  | .elapsed _ => true
  | .clearState _ => true
  | .armRx => true
  | .cancelRx => true
  | .flushR => true
  | .flushT => true
  | .isrPkt => true
  | .isrThr => true

end Sys2Proof
end

