-- ==== Sys2Proof/Decode.lean ====
section
/-! DEFINITION. The decoders of the framer's encodings (`30_encoding.md`), the KISS codec they rest on (R190 to R194), the
encoder, and the decoder of an opcode-table word. The spec has several encoding spaces (blocks in each direction, KISS frames,
KISS special bytes, status codes); a byte means nothing until the place it stands in is known, so a decoder takes the space. -/

namespace Sys2Proof

/-! ## Blocks -/

/-- `TYPE_CODE` (R71). -/
def typeCode : BlockType → Byte
  | .init => 0x01
  | .tx => 0x02
  | .rx => 0x03
  | .rxCancel => 0x04
  | .radioStatus => 0x05
  | .echoTest => 0x06
  | .txKo => 0x07
  | .rxKo => 0x08

/-- The block type a code stands for; `none` for the reserved codes of R83 (a). -/
def blockTypeOf (code : Byte) : Option BlockType :=
  if code = 0x01 then some .init
  else if code = 0x02 then some .tx
  else if code = 0x03 then some .rx
  else if code = 0x04 then some .rxCancel
  else if code = 0x05 then some .radioStatus
  else if code = 0x06 then some .echoTest
  else if code = 0x07 then some .txKo
  else if code = 0x08 then some .rxKo
  else none

/-- A block on the link: type, size, payload (R70). -/
def blockBytes (code : Byte) (payload : Bytes) : Bytes :=
  code :: BitVec.ofNat 8 payload.length :: payload

/-- The first block of a byte sequence: its type, its payload and what follows it; `none` when it is not whole. The length is
found "from its second byte and from nothing else" (R84). -/
def splitBlock : Bytes → Option (Byte × Bytes × Bytes)
  | code :: size :: rest =>
    if size.toNat ≤ rest.length then some (code, rest.take size.toNat, rest.drop size.toNat) else none
  | _ => none

/-- The command a host-to-device block is, by its type byte alone (R61, R104). -/
def decodeCommand (code : Byte) (payload : Bytes) : Instr :=
  match blockTypeOf code with
  | some .init => .init payload
  | some .tx => .tx payload
  | some .rx => .rx payload
  | some .rxCancel => .rxCancel payload
  | some .radioStatus => .radioStatus payload
  | some .echoTest => .echoTest payload
  | some .txKo => .blockReserved .h2d code payload
  | some .rxKo => .blockReserved .h2d code payload
  | none => .blockReserved .h2d code payload

/-- The reply a device-to-host block is, by its type byte alone (R71, R113). -/
def decodeReply (code : Byte) (payload : Bytes) : Instr :=
  match blockTypeOf code with
  | some .init => .initEcho payload
  | some .tx => .txAck payload
  | some .rx => .rxAck payload
  | some .rxCancel => .rxCancelEcho payload
  | some .radioStatus => .radioStatusReply payload
  | some .echoTest => .echoTestReply payload
  | some .txKo => .txKo payload
  | some .rxKo => .rxKo payload
  | none => .blockReserved .d2h code payload

/-! ## The KISS codec: pure functions (R190 to R194) -/

/-- Frame delimiter (R78). -/
def FEND : Byte := 0xC0
/-- Escape (R78). -/
def FESC : Byte := 0xDB
/-- Escaped delimiter (R78). -/
def TFEND : Byte := 0xDC
/-- Escaped escape (R78). -/
def TFESC : Byte := 0xDD

/-- `TOKENIZE` (R190): the first closed frame, with both its delimiters, and the rest, which starts with the closing one. -/
def tokenize (buf : Bytes) : Option (Bytes × Bytes) :=
  match buf with
  | [] => none
  | b :: _ =>
    if b = FEND then
      let content := buf.dropWhile (· == FEND)
      let after := content.dropWhile (· != FEND)
      if after.isEmpty then none
      else some (FEND :: (content.takeWhile (· != FEND) ++ [FEND]), after)
    else none

/-- What the byte after a `FESC` stands for: R191, and R203 for a byte that is neither `TFEND` nor `TFESC`. -/
def unescapePair (c : Byte) : Byte :=
  if c = TFEND then FEND else if c = TFESC then FESC else c

/-- The loop of `UNESCAPE` over a body without delimiters (R191); a trailing `FESC` is dropped (R203). -/
def unescapeBody : Bytes → Bytes
  | [] => []
  | [b] => if b = FESC then [] else [b]
  | b :: c :: rest => if b = FESC then unescapePair c :: unescapeBody rest else b :: unescapeBody (c :: rest)

/-- `UNESCAPE` (R191). -/
def unescape (frame : Bytes) : Bytes :=
  unescapeBody (frame.filter (· != FEND))

/-- The bytes one payload byte is sent as (R192). -/
def escapeByte (b : Byte) : Bytes :=
  if b = FEND then [FESC, TFEND] else if b = FESC then [FESC, TFESC] else [b]

/-- `ESCAPE` (R192): "always delimiter-wrapped". -/
def escape (payload : Bytes) : Bytes :=
  FEND :: (payload.flatMap escapeByte ++ [FEND])

/-- The low nibble of the command byte (R80). -/
def cmdOf (b : Byte) : Nibble := b.extractLsb' 0 4

/-- The high nibble of the command byte (R80). -/
def portOf (b : Byte) : Nibble := b.extractLsb' 4 4

/-- The command byte of R80. -/
def commandByte (port cmd : Nibble) : Byte := port ++ cmd

/-- The content of a frame, read as R194 reads it. -/
def interpretContent : Bytes → KissCmd
  | [] => .empty
  | b :: rest => if cmdOf b = 0 then .data (portOf b) rest else .config (cmdOf b) (portOf b) rest.head?

/-- `INTERPRET_COMMAND` (R194). -/
def interpretCommand (frame : Bytes) : KissCmd := interpretContent (unescape frame)

/-- The instruction a KISS command is (R81); an empty frame has none (R204). -/
def kissInstr : KissCmd → Option Instr
  | .data port bytes => some (.kissData port bytes)
  | .config cmd port value =>
    if cmd = 1 then some (.kissTxdelay port value)
    else if cmd = 2 then some (.kissPersist port value)
    else if cmd = 3 then some (.kissSlottime port value)
    else if cmd = 4 then some (.kissTxtail port value)
    else if cmd = 15 then some (.kissAbort port value)
    else some (.kissUnlisted port cmd value)
  | .empty => none

/-! ## Single bytes: KISS special bytes and status codes -/

/-- The special byte a byte is (R78); `none` for an ordinary byte. -/
def decodeSpecial (b : Byte) : Option Instr :=
  if b = FEND then some .fend
  else if b = FESC then some .fesc
  else if b = TFEND then some .tfend
  else if b = TFESC then some .tfesc
  else none

/-- The `STATUS` codes (R86). -/
def stCodeOk : Byte := 0x00
/-- TX FIFO underflow at end of packet (R86). -/
def stCodeUnderflow : Byte := 0x01
/-- TX FIFO not empty at end of packet (R86). -/
def stCodeNotEmpty : Byte := 0x02
/-- RX FIFO overflow at end of packet (R86). -/
def stCodeOverflow : Byte := 0x03

/-- The status code a byte is (R86); `none` for 0x04..0xFF, which are "reserved and never sent". -/
def decodeStatus (b : Byte) : Option Instr :=
  if b = stCodeOk then some .stOk
  else if b = stCodeUnderflow then some .stTxUnderflow
  else if b = stCodeNotEmpty then some .stTxNotEmpty
  else if b = stCodeOverflow then some .stRxOverflow
  else none

/-! ## The decoder, total on any bytes -/

/-- The encoding spaces: where a byte sequence stands decides how it is read (R71, R79, R86). -/
inductive Space where
  /-- blocks on `L_H2D` -/
  | command
  /-- blocks on `L_D2H` -/
  | reply
  /-- KISS frames -/
  | kiss
  /-- the four KISS special bytes -/
  | special
  /-- the status byte of the status shape -/
  | status
deriving DecidableEq, Repr

/-- Why a byte sequence is not an instruction. -/
inductive DecodeError where
  /-- The block is not whole: fewer than `size + 2` bytes (R84). -/
  | truncated
  /-- No closed frame: no delimiter at the front, or none that closes it (R190). -/
  | noFrame
  /-- The frame has no command byte (R204). -/
  | emptyFrame
  /-- The byte is not one of the four special bytes (R78). -/
  | notSpecial
  /-- A `STATUS` value 0x04..0xFF, "reserved and never sent" (R86). -/
  | reservedStatus
  /-- There is no byte to decode. -/
  | noByte
deriving DecidableEq, Repr

/-- An instruction, or the name of what stands in its way. -/
def orError (o : Option Instr) (e : DecodeError) (rest : Bytes) : Except DecodeError (Instr × Bytes) :=
  match o with
  | some i => .ok (i, rest)
  | none => .error e

/-- The first instruction of a byte sequence in an encoding space, and the bytes left. For a KISS frame the rest starts with
the frame's closing delimiter, as `TOKENIZE` leaves it (R190). -/
def decode (sp : Space) (bs : Bytes) : Except DecodeError (Instr × Bytes) :=
  match sp with
  | .command =>
    match splitBlock bs with
    | some (code, payload, rest) => .ok (decodeCommand code payload, rest)
    | none => .error .truncated
  | .reply =>
    match splitBlock bs with
    | some (code, payload, rest) => .ok (decodeReply code payload, rest)
    | none => .error .truncated
  | .kiss =>
    match tokenize bs with
    | some (frame, rest) => orError (kissInstr (interpretCommand frame)) .emptyFrame rest
    | none => .error .noFrame
  | .special =>
    match bs with
    | b :: rest => orError (decodeSpecial b) .notSpecial rest
    | [] => .error .noByte
  | .status =>
    match bs with
    | b :: rest => orError (decodeStatus b) .reservedStatus rest
    | [] => .error .noByte

/-! ## The encoder -/

/-- A KISS frame from its content: the command byte and what follows it (R79, R80). -/
def kissFrameBytes (port cmd : Nibble) (rest : Bytes) : Bytes := escape (commandByte port cmd :: rest)

/-- The space an instruction is encoded in; `none` for the events and operations, which have "no bit encoding" (R82, R85). -/
def Instr.space : Instr → Option Space
  | .init _ => some .command
  | .tx _ => some .command
  | .rx _ => some .command
  | .rxCancel _ => some .command
  | .radioStatus _ => some .command
  | .echoTest _ => some .command
  | .initEcho _ => some .reply
  | .txAck _ => some .reply
  | .rxAck _ => some .reply
  | .rxCancelEcho _ => some .reply
  | .radioStatusReply _ => some .reply
  | .echoTestReply _ => some .reply
  | .txKo _ => some .reply
  | .rxKo _ => some .reply
  | .blockReserved .h2d _ _ => some .command
  | .blockReserved .d2h _ _ => some .reply
  | .stOk => some .status
  | .stTxUnderflow => some .status
  | .stTxNotEmpty => some .status
  | .stRxOverflow => some .status
  | .fend => some .special
  | .fesc => some .special
  | .tfend => some .special
  | .tfesc => some .special
  | .kissData _ _ => some .kiss
  | .kissTxdelay _ _ => some .kiss
  | .kissPersist _ _ => some .kiss
  | .kissSlottime _ _ => some .kiss
  | .kissTxtail _ _ => some .kiss
  | .kissAbort _ _ => some .kiss
  | .kissUnlisted _ _ _ => some .kiss
  | .evPktRise => none
  | .evPktFall => none
  | .evThrRise => none
  | .evThrFall => none
  | .evCancel => none
  | .evTxStart _ => none
  | .evRxStart _ => none
  | .sendCommand _ _ => none
  | .readBlock _ => none
  | .hostInit => none
  | .devRecv => none
  | .devDispatch _ _ => none
  | .devSend => none
  | .sendPacket _ _ _ => none
  | .sendBlock _ _ => none
  | .receivePacket _ _ _ _ => none
  | .receiveBlock _ _ _ => none
  | .strStep _ => none
  | .stopLines => none
  | .composeStatus _ _ => none
  | .composeData _ _ => none
  | .tokenize _ => none
  | .unescape _ => none
  | .escape _ => none
  | .interpretCommand _ => none
  | .kissProcess _ => none
  | .schedStart => none
  | .schedLoop => none
  | .step1 => none
  | .step2 => none
  | .step3 => none
  | .step4 => none
  | .step5 => none
  | .elapsed _ => none
  | .clearState _ => none
  | .armRx => none
  | .cancelRx => none
  | .flushR => none
  | .flushT => none
  | .isrPkt => none
  | .isrThr => none

/-- The bytes of a well-formed instruction, from the encoding tables of R70 to R81 and R86; empty for an instruction that has
no bit encoding (`Instr.space` is `none`). -/
def encode : Instr → Bytes
  | .init p => blockBytes 0x01 p
  | .tx p => blockBytes 0x02 p
  | .rx p => blockBytes 0x03 p
  | .rxCancel p => blockBytes 0x04 p
  | .radioStatus p => blockBytes 0x05 p
  | .echoTest p => blockBytes 0x06 p
  | .initEcho p => blockBytes 0x01 p
  | .txAck p => blockBytes 0x02 p
  | .rxAck p => blockBytes 0x03 p
  | .rxCancelEcho p => blockBytes 0x04 p
  | .radioStatusReply p => blockBytes 0x05 p
  | .echoTestReply p => blockBytes 0x06 p
  | .txKo p => blockBytes 0x07 p
  | .rxKo p => blockBytes 0x08 p
  | .blockReserved _ ty p => blockBytes ty p
  | .stOk => [0x00]
  | .stTxUnderflow => [0x01]
  | .stTxNotEmpty => [0x02]
  | .stRxOverflow => [0x03]
  | .fend => [0xC0]
  | .fesc => [0xDB]
  | .tfend => [0xDC]
  | .tfesc => [0xDD]
  | .kissData port bytes => kissFrameBytes port 0 bytes
  | .kissTxdelay port value => kissFrameBytes port 1 value.toList
  | .kissPersist port value => kissFrameBytes port 2 value.toList
  | .kissSlottime port value => kissFrameBytes port 3 value.toList
  | .kissTxtail port value => kissFrameBytes port 4 value.toList
  | .kissAbort port value => kissFrameBytes port 15 value.toList
  | .kissUnlisted port cmd value => kissFrameBytes port cmd value.toList
  | .evPktRise => []
  | .evPktFall => []
  | .evThrRise => []
  | .evThrFall => []
  | .evCancel => []
  | .evTxStart _ => []
  | .evRxStart _ => []
  | .sendCommand _ _ => []
  | .readBlock _ => []
  | .hostInit => []
  | .devRecv => []
  | .devDispatch _ _ => []
  | .devSend => []
  | .sendPacket _ _ _ => []
  | .sendBlock _ _ => []
  | .receivePacket _ _ _ _ => []
  | .receiveBlock _ _ _ => []
  | .strStep _ => []
  | .stopLines => []
  | .composeStatus _ _ => []
  | .composeData _ _ => []
  | .tokenize _ => []
  | .unescape _ => []
  | .escape _ => []
  | .interpretCommand _ => []
  | .kissProcess _ => []
  | .schedStart => []
  | .schedLoop => []
  | .step1 => []
  | .step2 => []
  | .step3 => []
  | .step4 => []
  | .step5 => []
  | .elapsed _ => []
  | .clearState _ => []
  | .armRx => []
  | .cancelRx => []
  | .flushR => []
  | .flushT => []
  | .isrPkt => []
  | .isrThr => []

/-! ## The opcode table's words -/

/-- The bytes of a table word: byte `k` is bits `8k+7..8k` (bit 0 is the first byte's least significant bit). -/
def tableBytes (nbits w : Nat) : Bytes :=
  (List.range ((nbits + 7) / 8)).map fun k => BitVec.ofNat 8 (w / 2 ^ (8 * k))

/-- The space a table word is read in, by its first byte. The table's one-byte rows overlap (0x01 is INIT, INIT_ECHO,
ST_TX_UNDERFLOW and KISS_TXDELAY), so one byte alone cannot say which row is meant. DESIGN CHOICE (log entry 5): command blocks
first, then the types only a device sends, then the special bytes, then 0x00 as the status code ST_OK, then the block types
no row names below 0x0F, then KISS command bytes. -/
def tableSpace (b : Byte) : Space :=
  if b = 0x00 then .status
  else if b = FEND ∨ b = FESC ∨ b = TFEND ∨ b = TFESC then .special
  else if b = 0x07 ∨ b = 0x08 then .reply
  else if 1 ≤ b.toNat ∧ b.toNat ≤ 14 then .command
  else .kiss

/-- A table word laid out as its space stores it: every bit above the word is 0, so a block's missing `size` byte is 0 and its
missing payload bytes are 0, and a KISS command has an operand byte 0. -/
def tableLayout (bs : Bytes) : Bytes :=
  match bs with
  | [] => []
  | b :: rest =>
    match tableSpace b with
    | .kiss => escape (b :: (rest ++ List.replicate (1 - rest.length) 0))
    | .special => [b]
    | .status => [b]
    | .command =>
      let size := (rest.headD 0).toNat
      b :: rest.headD 0 :: (rest.tail ++ List.replicate size 0).take size
    | .reply =>
      let size := (rest.headD 0).toNat
      b :: rest.headD 0 :: (rest.tail ++ List.replicate size 0).take size

/-- The instruction the decoder reads from an opcode-table word of `nbits` bits. -/
def decodeTableWord (nbits w : Nat) : Option Instr :=
  match tableBytes nbits w with
  | [] => none
  | b :: rest =>
    match decode (tableSpace b) (tableLayout (b :: rest)) with
    | .ok (i, _) => some i
    | .error _ => none

end Sys2Proof
end

