-- ==== Sys2Proof/Machine/Operands.lean ====
section
/-! DEFINITION. The operand forms: the lengths, counts and slices the operations compute from their operands, and the reading
and writing of the named buffers (`00_scope.md` R6, R7). -/

namespace Sys2Proof.Machine

/-- `ceil(a / b)` for `b > 0`: "the least natural `q` with `q · b ≥ a`" (R6). -/
def ceilDiv (a b : Nat) : Nat := (a + b - 1) / b

/-- `block_count` (R130). -/
def blockCount (len b : Nat) : Nat := ceilDiv len (b - 2)

/-- The data of block `i` of a packet (R130): `payload[i·(B−2) : min(L, (i+1)·(B−2))]`. -/
def blockData (payload : Bytes) (b i : Nat) : Bytes := (payload.drop (i * (b - 2))).take (b - 2)

/-- The countdown of block `i` of `n` (R130, R87). -/
def countdownOf (n i : Nat) : Byte := BitVec.ofNat 8 (n - 1 - i)

/-- The blocks of a packet as `(countdown, data)` pairs, in the order they are sent (R131). -/
def packetBlocks (payload : Bytes) (b : Nat) : List (Byte × Bytes) :=
  let n := blockCount payload.length b
  (List.range n).map fun i => (countdownOf n i, blockData payload b i)

/-- The block sizes the segmentation engine takes: 3..253 (R137). -/
def blockSizeOk (b : Nat) : Bool := decide (3 ≤ b) && decide (b ≤ 253)

/-- `SEND_PACKET`'s limits (R131, R137, R289). -/
def packetFits (payload : Bytes) (b : Nat) : Bool :=
  blockSizeOk b && decide (blockCount payload.length b ≤ 256)

/-- `RXCAP` = min(`RXLEN` + 2, 255) (R33). -/
def rxCap (rxlen : Byte) : Nat := min (rxlen.toNat + 2) 255

/-- The sequence check (R135): the countdown is `EXPCNT − NREAD`, over the naturals. -/
def seqOk (cd : Byte) (expcnt nread : Nat) : Bool := decide (cd.toNat + nread = expcnt)

/-- The KISS delay a value byte stands for (R196). -/
def kissDelay (p : Params) (value : Byte) : Nat := value.toNat * p.kissUnit

/-- The named buffers that `MemRead` and `MemWrite` take (R7, R50). -/
inductive Buffer where
  | trhAcc
  | trdAcc
  | txbuf
  | rxbuf
  | rbuf
  | tbuf
  | asm
deriving DecidableEq, Repr

/-- The content of a named buffer (R50). -/
def bufferOf (sp : Buffer) (s : State) : Bytes :=
  match sp with
  | .trhAcc => s.host.trh.acc
  | .trdAcc => s.dev.trd.acc
  | .txbuf => s.dev.str.txbuf
  | .rxbuf => s.dev.str.rxbuf
  | .rbuf => s.host.sch.rbuf
  | .tbuf => s.host.sch.tbuf
  | .asm => s.host.seg.asm

/-- `MemRead(space:addr, n)`: "the `n` bytes at index `addr` of the named buffer" (R7); it changes nothing. -/
def memRead (sp : Buffer) (addr n : Nat) (s : State) : Bytes := ((bufferOf sp s).drop addr).take n

/-- A named buffer with a new content. -/
def setBuffer (sp : Buffer) (b : Bytes) (s : State) : State :=
  match sp with
  | .trhAcc => { s with host.trh.acc := b }
  | .trdAcc => { s with dev.trd.acc := b }
  | .txbuf => { s with dev.str.txbuf := b }
  | .rxbuf => { s with dev.str.rxbuf := b }
  | .rbuf => { s with host.sch.rbuf := b }
  | .tbuf => { s with host.sch.tbuf := b }
  | .asm => { s with host.seg.asm := b }

/-- `MemWrite(space:addr, n, v)`: store the `n = len v` bytes at index `addr` (R7). -/
def memWrite (sp : Buffer) (addr : Nat) (v : Bytes) (s : State) : State :=
  setBuffer sp ((bufferOf sp s).take addr ++ v ++ (bufferOf sp s).drop (addr + v.length)) s

/-- The append `BUF <- BUF ++ d`, "which abbreviates the obvious run of `MemWrite`s" (R7). -/
def appendBuffer (sp : Buffer) (d : Bytes) (s : State) : State := memWrite sp (bufferOf sp s).length d s

/-- One byte of a named buffer; `none` past its end. -/
def byteAt (sp : Buffer) (addr : Nat) (s : State) : Option Byte := (bufferOf sp s)[addr]?

end Sys2Proof.Machine
end

