-- ==== Sys2Proof/Machine/Ops.lean ====
section
/-! DEFINITION. The named operations the meanings are written over: channels, the GPIO lines, the radio port, responses, the
interrupt's entry and return, and the host's results and pending work. -/

namespace Sys2Proof.Machine

/-- What a meaning answers. -/
abbrev Out := Host.Outcome State Fault Refusal

/-- Go on with the next state, if there is one. -/
def andThen (o : Out) (k : State → Out) : Out :=
  match o with
  | .next s => k s
  | .fault r => .fault r
  | .refused r => .refused r

/-! ## Channels (R7, R36) -/

/-- `ChanPut`: the bytes go to the tail; they are in flight until `LINK` delivers them (R38 (a)). -/
def chanPut (c : Chan) (b : Bytes) : Chan := { c with flight := c.flight ++ b }

/-- `LINK` makes the next `k` bytes available, in order (R56). -/
def chanDeliver (c : Chan) (k : Nat) : Chan :=
  { avail := c.avail ++ c.flight.take k, flight := c.flight.drop k }

/-- `ChanAvail`: bytes in flight do not count (R38 (a)). -/
def chanAvail (c : Chan) : Nat := c.avail.length

/-- Put bytes on `L_H2D`. -/
def putH2D (b : Bytes) (s : State) : State := { s with lH2D := chanPut s.lH2D b }

/-- Put bytes on `L_D2H`. -/
def putD2H (b : Bytes) (s : State) : State := { s with lD2H := chanPut s.lD2H b }

/-! ## The GPIO lines (R292) -/

/-- A line takes a level: `PIN[X]` follows it, and a selected edge sets `IFG[X]`, whatever `IE[X]` holds (R292). -/
def setLine (x : Line) (level : Bool) (s : State) : State :=
  if pinOf x s = level then s
  else
    let s' := setPin x level s
    if iesOf x s = !level then setIfg x true s' else s'

/-- The level of the threshold line: high exactly while either FIFO is at or above its threshold (R301). -/
def thrLevel (s : State) : Bool :=
  decide (s.par.txThr ≤ s.radio.txFifo.length) || decide (s.par.rxThr ≤ s.radio.rxFifo.length)

/-- "The level follows every change of a FIFO at once, whoever makes it" (R301). -/
def updateThr (s : State) : State := setLine .thr (thrLevel s) s

/-- One read of a GPIO register: bits `[PKT]` and `[THR]` as they stand, the other bits free (R34; log entry 3). -/
def readReg (v : Byte) (s : State) : Byte :=
  (v &&& lineMask s.par) ||| (Config.freeGpioBits s.freeCtr &&& ~~~lineMask s.par)

/-! ## The radio port (R63) -/

/-- `FifoCount(TXFIFO)`. -/
def txCount (s : State) : Nat := s.radio.txFifo.length
/-- `FifoCount(RXFIFO)`. -/
def rxCount (s : State) : Nat := s.radio.rxFifo.length

/-- Bytes at the tail of `TXFIFO`. -/
def pushTxFifo (b : Bytes) (s : State) : State := { s with radio.txFifo := s.radio.txFifo ++ b }

/-- The first `n` bytes of `RXFIFO` gone. -/
def dropRxFifo (n : Nat) (s : State) : State := { s with radio.rxFifo := s.radio.rxFifo.drop n }

/-- `FifoWrite(TXFIFO, b)`; past `FIFO_SIZE` it is a fault (R63). -/
def fifoWrite (b : Bytes) (s : State) : Out :=
  if txCount s + b.length ≤ s.par.fifoSize then
    .next (updateThr (pushTxFifo b s))
  else .fault .fifoOverfill

/-- `FifoRead(RXFIFO, n)`: the bytes go to `k`; reading more than there are is a fault (R63). -/
def fifoRead (n : Nat) (s : State) (k : Bytes → State → Out) : Out :=
  if n ≤ rxCount s then
    k (s.radio.rxFifo.take n) (updateThr (dropRxFifo n s))
  else .fault .fifoUnderread

/-- The record `RadioStatus()` returns (R63). -/
structure RadioStatusRec where
  txUnf : Bool
  rxOvf : Bool
  txBytes : Nat
  rxBytes : Nat
deriving DecidableEq, Repr

/-- `RadioStatus()`: it changes nothing (R63). -/
def radioStatusOf (s : State) : RadioStatusRec where
  txUnf := s.radio.txUnf
  rxOvf := s.radio.rxOvf
  txBytes := txCount s
  rxBytes := rxCount s

/-- `RadioSnapshot()`: `STATUS_LEN` bytes chosen by the radio (R63; log entry 4). -/
def radioSnapshot (s : State) : Bytes :=
  (List.range s.par.statusLen).map (Config.freeSnapshotByte s.freeCtr)

/-- One more read has returned free values. -/
def countFree (s : State) : State := { s with freeCtr := s.freeCtr + 1 }

/-- `RadioConfigure(p)` (R63): the record is handed to the radio. -/
def radioConfigure (p : Bytes) (s : State) : State := { s with radio.config := p }

/-- `Strobe(START_TX)` (R63, R301); `AIRLEN` is the environment's choice, a matched radio's is `STR.TXLEN`. -/
def strobeStartTx (s : State) : State :=
  { s with
    radio.rstate := .tx
    radio.sent := 0
    radio.synced := false
    radio.airLen := s.radio.airSel.getD s.dev.str.txlen }

/-- `Strobe(START_RX)` (R63, R302). -/
def strobeStartRx (s : State) : State := { s with radio.rstate := .rx, radio.inPkt := false }

/-- `Strobe(ABORT)` (R301): idle, both FIFOs emptied, both flags cleared, both lines low. -/
def strobeAbort (s : State) : State :=
  setLine .pkt false (setLine .thr false
    { s with
      radio.rstate := .idle
      radio.txFifo := []
      radio.rxFifo := []
      radio.txUnf := false
      radio.rxOvf := false })

/-- `Strobe(FLUSH_TX)` (R63): empties `TXFIFO` and clears `TXUNF`. -/
def strobeFlushTx (s : State) : State := updateThr { s with radio.txFifo := [], radio.txUnf := false }

/-- `Strobe(FLUSH_RX)` (R63): empties `RXFIFO` and clears `RXOVF`. -/
def strobeFlushRx (s : State) : State := updateThr { s with radio.rxFifo := [], radio.rxOvf := false }

/-! ## Responses (R104, R161, R162) -/

/-- `Respond(type, payload)`: append a composed block to `OUTQ` (R104). -/
def respond (ty : BlockType) (payload : Bytes) (s : State) : State :=
  { s with dev.outq := s.dev.outq ++ [blockBytes (typeCode ty) payload] }

/-- `COMPOSE_STATUS(type, st)` (R161): the counters and the four registers as they stand now. -/
def composeStatusOp (ty : BlockType) (st : Byte) (s : State) : State :=
  let c := s.dev.str
  let g := s.dev.gpio
  let s1 := countFree s
  let s2 := countFree s1
  let s3 := countFree s2
  respond ty
    [st, c.cntPktRise, c.cntPktFall, c.cntThrRise, c.cntThrFall,
     readReg g.pin s, readReg g.ifg s1, readReg g.ie s2, readReg g.ies s3] (countFree s3)

/-- `COMPOSE_DATA(type, bytes)` (R162). -/
def composeDataOp (ty : BlockType) (b : Bytes) (s : State) : State := respond ty b s

/-- `STOP_LINES()` (R166): both lines disabled, nothing pending. -/
def stopLinesOp (s : State) : State :=
  setIfg .thr false (setIfg .pkt false (setIe .thr false (setIe .pkt false s)))

/-- A command block the device cannot accept is ignored: "its bytes are consumed, no state changes, nothing is queued" (R111). -/
def ignoreCommand (s : State) : State := s

/-! ## Taking an interrupt and returning from it (R294, R295) -/

/-- Entry: `GIE <- 0`; "nothing else is saved or changed on entry" (R294). -/
def interruptEntry (s : State) : State := { s with dev.gie := false }

/-- The event a handler delivers: the edge `IES[X]` names when it runs (R294). -/
def interruptEvent (x : Line) (s : State) : Event :=
  match x, iesOf x s with
  | .pkt, false => .pktRise
  | .pkt, true => .pktFall
  | .thr, false => .thrRise
  | .thr, true => .thrFall

/-- Return: `IFG[X] <- 0`, `GIE <- 1` (R294, R295). -/
def interruptReturn (x : Line) (s : State) : State := { setIfg x false s with dev.gie := true }

/-- Taking the interrupt of line `x`, when its handler is enabled (R294); otherwise nothing happens. -/
def takeInterrupt (x : Line) (handler : Event → State → Out) (s : State) : Out :=
  if isrEnabled x s then
    andThen (handler (interruptEvent x s) (interruptEntry s)) fun s' => .next (interruptReturn x s')
  else .next s

/-- The main loop's bracket: `GIE <- 0; ...; GIE <- 1` (R59). -/
def bracket (body : State → Out) (s : State) : Out :=
  andThen (body { s with dev.gie := false }) fun s' => .next { s' with dev.gie := true }

/-! ## The host's log, results and pending work -/

/-- `Log(event)` (R7, R11). -/
def logEvent (e : LogEvent) (s : State) : State := { s with log := s.log ++ [e] }

/-- `return v`: the operation's result (R7, R10). -/
def setRes (r : Result) (s : State) : State := { s with host.res := r }

/-- Put work before what the host still has to do. -/
def pushTasks (ts : List Task) (s : State) : State := { s with host.ctl := ts ++ s.host.ctl }

/-- Leave `k` as what the host still has to do. -/
def setCtl (k : List Task) (s : State) : State := { s with host.ctl := k }

/-- `Sleep(t)` (R8): `t` ticks pass. -/
def sleepOp (t : Nat) (s : State) : State := { s with now := s.now + t }

/-- `SEND_COMMAND(type, payload)` (R100). -/
def sendCommandOp (c : Cmd) (payload : Bytes) (s : State) : State :=
  if payload.length ≤ 255 then
    setRes (.wrote (payload.length + 2)) (putH2D (blockBytes (typeCode c.blockType) payload) s)
  else setRes (.fail .refused []) s

end Sys2Proof.Machine
end

