-- ==== Sys2Proof/Machine/Streamer.lean ====
section
/-! DEFINITION. The FIFO streaming state machine (`42_streamer.md`): its event rules, its transition function, and the meanings
of `STR_STEP`, `STOP_LINES`, `COMPOSE_STATUS` and `COMPOSE_DATA`. -/

namespace Sys2Proof.Machine

/-- The four counters zeroed, "reset at each mode entry" (R31, R151, R152). -/
def zeroCounters (s : State) : State :=
  { s with
    dev.str.cntPktRise := 0
    dev.str.cntPktFall := 0
    dev.str.cntThrRise := 0
    dev.str.cntThrFall := 0 }

/-- `MODE <- m`. -/
def setMode (m : Mode) (s : State) : State := { s with dev.str.mode := m }

/-- `TXBUF <- payload; TXLEN <- len payload` (R151). -/
def setTxBuf (payload : Bytes) (s : State) : State :=
  { s with dev.str.txbuf := payload, dev.str.txlen := payload.length }

/-- `TXPOS <- n` (R151, R153). -/
def setTxPos (n : Nat) (s : State) : State := { s with dev.str.txpos := n }

/-- `RXBUF <- []; RXLEN <- rxlen` (R152). -/
def setRxLen (rxlen : Byte) (s : State) : State := { s with dev.str.rxbuf := [], dev.str.rxlen := rxlen }

/-- `RXBUF <- RXBUF ++ b` (R156, R158). -/
def appendRxBuf (b : Bytes) (s : State) : State := { s with dev.str.rxbuf := s.dev.str.rxbuf ++ b }

/-- `CNT.PKT_RISE <- CNT.PKT_RISE + 1` (R164). -/
def bumpPktRise (s : State) : State := { s with dev.str.cntPktRise := s.dev.str.cntPktRise + 1 }
/-- `CNT.PKT_FALL <- CNT.PKT_FALL + 1` (R164). -/
def bumpPktFall (s : State) : State := { s with dev.str.cntPktFall := s.dev.str.cntPktFall + 1 }
/-- `CNT.THR_RISE <- CNT.THR_RISE + 1` (R164). -/
def bumpThrRise (s : State) : State := { s with dev.str.cntThrRise := s.dev.str.cntThrRise + 1 }
/-- `CNT.THR_FALL <- CNT.THR_FALL + 1` (R164). -/
def bumpThrFall (s : State) : State := { s with dev.str.cntThrFall := s.dev.str.cntThrFall + 1 }

/-- The bytes `TX_START` loads at once: `FIFO_SIZE − 1` at most (R151). -/
def initialLoad (s : State) : Nat := min s.dev.str.txlen (s.par.fifoSize - 1)

/-- The line set-up of `TX_START` after the load (R151): packet line on its rising edge; threshold line on its falling edge
"if more bytes remain", else disabled. -/
def txArm (s : State) : State :=
  let s := setIe .pkt true (setIfg .pkt false (setIes .pkt false s))
  let s := setIfg .thr false s
  if s.dev.str.txpos < s.dev.str.txlen then setIe .thr true (setIes .thr true s) else setIe .thr false s

/-- `TX_START(payload)` in `IDLE` (R151). -/
def txSetup (payload : Bytes) (s : State) : Out :=
  let s := setTxBuf payload (zeroCounters s)
  let n := initialLoad s
  andThen (fifoWrite (memRead .txbuf 0 n s) s) fun s =>
    .next (strobeStartTx (setMode .txStreaming (txArm (setTxPos n s))))

/-- `RX_START(rxlen)` in `IDLE` (R152). -/
def rxSetup (rxlen : Byte) (s : State) : State :=
  let s := setRxLen rxlen (zeroCounters s)
  let s := setIe .pkt true (setIfg .pkt false (setIes .pkt false s))
  let s := setIe .thr true (setIfg .thr false (setIes .thr false s))
  strobeStartRx (setMode .rxStreaming s)

/-- The bytes a refill writes: `min(TX_CHUNK, TXLEN − TXPOS)` (R153). -/
def refillSize (s : State) : Nat := min s.par.txChunk (s.dev.str.txlen - s.dev.str.txpos)

/-- `THR_FALL` in `TX_STREAMING`: refill (R153). -/
def refill (s : State) : Out :=
  let s := bumpThrFall s
  let n := refillSize s
  andThen (fifoWrite (memRead .txbuf s.dev.str.txpos n s) s) fun s =>
    let s := setIfg .thr false (setTxPos (s.dev.str.txpos + n) s)
    .next (if s.dev.str.txpos = s.dev.str.txlen then setIe .thr false s else s)

/-- `PKT_RISE`: sync word sent (R154) or received (R157); from now on the line waits for its falling edge. -/
def syncSeen (s : State) : State :=
  setIfg .pkt false (setIes .pkt true (bumpPktRise s))

/-- A clean end of a transmission: a TX ack with status 0x00 (R155). -/
def reportTxOk (s : State) : State := composeStatusOp .tx stCodeOk s

/-- A failed end of a transmission: the TX FIFO is flushed, a TX_KO carries the status (R155, R284). -/
def reportTxError (st : Byte) (s : State) : State := composeStatusOp .txKo st (strobeFlushTx s)

/-- An overflow at the end of a reception: the RX FIFO is flushed, an RX_KO carries status 0x03 (R158, R284). -/
def reportRxOverflow (s : State) : State := composeStatusOp .rxKo stCodeOverflow (strobeFlushRx s)

/-- The status of an ended transmission: underflow before not-empty (R86, R155). -/
def txStatus (r : RadioStatusRec) : Byte :=
  if r.txUnf then stCodeUnderflow else if r.txBytes > 0 then stCodeNotEmpty else stCodeOk

/-- `PKT_FALL` in `TX_STREAMING`: transmission complete (R155). -/
def txEnd (s : State) : State :=
  let s := bumpPktFall s
  let st := txStatus (radioStatusOf s)
  let s := if st = stCodeOk then reportTxOk s else reportTxError st s
  setMode .idle (stopLinesOp s)

/-- The bytes still free in the receive buffer: `RXCAP − len RXBUF` (R156). -/
def rxRoom (s : State) : Nat := rxCap s.dev.str.rxlen - s.dev.str.rxbuf.length

/-- Drain `n` bytes of the RX FIFO into `RXBUF` (R156, R158). -/
def drainInto (n : Nat) (s : State) (k : State → Out) : Out :=
  fifoRead n s fun b s' => k (appendRxBuf b s')

/-- `THR_RISE` in `RX_STREAMING`: drain (R156). -/
def drain (s : State) : Out :=
  let s := bumpThrRise s
  drainInto (min s.par.rxChunk (min (rxCount s) (rxRoom s))) s fun s => .next (setIfg .thr false s)

/-- `PKT_FALL` in `RX_STREAMING`: end of packet (R158). -/
def rxEnd (s : State) : Out :=
  let s := bumpPktFall s
  if (radioStatusOf s).rxOvf then .next (setMode .idle (stopLinesOp (reportRxOverflow s)))
  else
    drainInto (min (rxCount s) (rxRoom s)) s fun s =>
      let s := if rxCount s > 0 then strobeFlushRx s else s
      let s := composeDataOp .rx s.dev.str.rxbuf s
      .next (setMode .idle (stopLinesOp s))

/-- `CANCEL`, in any mode (R159). -/
def cancelStep (s : State) : State :=
  setMode .idle (strobeAbort
    (setIfg .thr false (setIfg .pkt false (setIe .thr false (setIe .pkt false s)))))

/-- The transition function `STR_STEP` (R150): an input the mode does not expect, or an edge that is not armed, is ignored
and changes nothing (R160, R163). -/
def strStepOp (ev : Event) (s : State) : Out :=
  match ev, s.dev.str.mode with
  | .txStart payload, .idle => txSetup payload s
  | .txStart _, _ => .next s
  | .rxStart rxlen, .idle => .next (rxSetup rxlen s)
  | .rxStart _, _ => .next s
  | .pktRise, .idle => .next s
  | .pktRise, _ => .next (if armedEdge .pkt false s then syncSeen s else s)
  | .pktFall, .idle => .next s
  | .pktFall, .txStreaming => .next (if armedEdge .pkt true s then txEnd s else s)
  | .pktFall, .rxStreaming => if armedEdge .pkt true s then rxEnd s else .next s
  | .thrRise, .rxStreaming => if armedEdge .thr false s then drain s else .next s
  | .thrRise, _ => .next s
  | .thrFall, .txStreaming => if armedEdge .thr true s then refill s else .next s
  | .thrFall, _ => .next s
  | .cancel, _ => .next (cancelStep s)

/-! ## The meanings -/

/-- `STR_STEP(ctx, ev)` (R150). -/
def execStrStep (ev : Event) (s : State) : Out := strStepOp ev s

/-- `STOP_LINES()` (R166). -/
def execStopLines (s : State) : Out := .next (stopLinesOp s)

/-- `COMPOSE_STATUS(type, st)` (R161). -/
def execComposeStatus (ty : BlockType) (st : Byte) (s : State) : Out := .next (composeStatusOp ty st s)

/-- `COMPOSE_DATA(type, bytes)` (R162). -/
def execComposeData (ty : BlockType) (bytes : Bytes) (s : State) : Out := .next (composeDataOp ty bytes s)

end Sys2Proof.Machine
end

