-- ==== Sys2Proof/Machine/Commands.lean ====
section
/-! DEFINITION. The meanings of the host-to-device command blocks (`40_transport.md` R105 to R111), as the device's dispatcher
runs them (R104: with `GIE` = 0, inside the bracket of R103). -/

namespace Sys2Proof.Machine

/-- INIT (R105): the record is kept and handed to the radio, and an empty INIT echo is queued; ignored with a size that is
not `PARMS_LEN` or outside `IDLE` (R111). -/
def execInit (payload : Bytes) (s : State) : Out :=
  if payload.length ≠ s.par.parmsLen ∨ s.dev.str.mode ≠ .idle then .next (ignoreCommand s)
  else
    let s := radioConfigure payload { s with dev.parms := payload }
    .next (respond .init [] { s with dev.inited := true })

/-- TX (R106): start a transmission; ignored with an empty payload, before INIT or outside `IDLE` (R111). -/
def execTx (payload : Bytes) (s : State) : Out :=
  if payload.length = 0 ∨ s.dev.inited = false ∨ s.dev.str.mode ≠ .idle then .next (ignoreCommand s)
  else strStepOp (.txStart payload) s

/-- RX (R107): start a reception; ignored unless the payload is one byte, after INIT and in `IDLE` (R111). -/
def execRx (payload : Bytes) (s : State) : Out :=
  if payload.length ≠ 1 ∨ s.dev.inited = false ∨ s.dev.str.mode ≠ .idle then .next (ignoreCommand s)
  else strStepOp (.rxStart (payload.headD 0)) s

/-- RX_CANCEL (R108): cancel in any mode and echo the command; a payload is ignored. -/
def execRxCancel (_payload : Bytes) (s : State) : Out :=
  andThen (strStepOp .cancel s) fun s => .next (respond .rxCancel [] s)

/-- RADIO_STATUS (R109): answer with the radio's status snapshot, in every mode; a payload is ignored. -/
def execRadioStatus (_payload : Bytes) (s : State) : Out :=
  .next (respond .radioStatus (radioSnapshot s) (countFree s))

/-- ECHO_TEST (R110): answer with the payload, in every mode. -/
def execEchoTest (payload : Bytes) (s : State) : Out := .next (respond .echoTest payload s)

end Sys2Proof.Machine
end

