-- ==== Sys2Proof/Machine/Events.lean ====
section
/-! DEFINITION. The meanings of the streamer's inputs (R82) and of the status codes its end-of-packet handler reports (R86). -/

namespace Sys2Proof.Machine

/-- `PKT_RISE`: sync word sent (R154) or received (R157). -/
def execEvPktRise (s : State) : Out := strStepOp .pktRise s
/-- `PKT_FALL`: transmission complete (R155) or end of packet (R158). -/
def execEvPktFall (s : State) : Out := strStepOp .pktFall s
/-- `THR_RISE`: drain, in `RX_STREAMING` only (R156). -/
def execEvThrRise (s : State) : Out := strStepOp .thrRise s
/-- `THR_FALL`: refill, in `TX_STREAMING` only (R153). -/
def execEvThrFall (s : State) : Out := strStepOp .thrFall s
/-- `CANCEL`, in any mode (R159). -/
def execEvCancel (s : State) : Out := strStepOp .cancel s
/-- `TX_START(payload)` (R151). -/
def execEvTxStart (payload : Bytes) (s : State) : Out := strStepOp (.txStart payload) s
/-- `RX_START(rxlen)` (R152). -/
def execEvRxStart (rxlen : Byte) (s : State) : Out := strStepOp (.rxStart rxlen) s

/-- `STATUS` 0x00, no error: what the end-of-packet handler does with it (R155). -/
def execStOk (s : State) : Out := .next (reportTxOk s)
/-- `STATUS` 0x01, TX FIFO underflow: flush and KO (R155, R284). -/
def execStTxUnderflow (s : State) : Out := .next (reportTxError stCodeUnderflow s)
/-- `STATUS` 0x02, TX FIFO not empty: flush and KO (R155, R284). -/
def execStTxNotEmpty (s : State) : Out := .next (reportTxError stCodeNotEmpty s)
/-- `STATUS` 0x03, RX FIFO overflow: flush and KO (R158, R284). -/
def execStRxOverflow (s : State) : Out := .next (reportRxOverflow s)

end Sys2Proof.Machine
end

