-- ==== Sys2Proof/Machine/Interrupts.lean ====
section
/-! DEFINITION. The two interrupt handlers (`60_exceptions.md` R294). -/

namespace Sys2Proof.Machine

/-- `ISR_PKT` (R294): take the packet line's interrupt and run the streamer's transition function on its event. -/
def execIsrPkt (s : State) : Out := takeInterrupt .pkt strStepOp s

/-- `ISR_THR` (R294): the same for the threshold line. -/
def execIsrThr (s : State) : Out := takeInterrupt .thr strStepOp s

/-- Whether the handler of line `x` may be the next to start: the other line goes first when both are requested and
`IRQ_ORDER` says so (R293). -/
def irqAllowed (x : Line) (s : State) : Bool :=
  match x, s.par.irqOrder with
  | .pkt, .thrFirst => !isrEnabled .thr s
  | .thr, .pktFirst => !isrEnabled .pkt s
  | _, _ => true

end Sys2Proof.Machine
end

