-- ==== Sys2Proof/Machine/Kiss.lean ====
section
/-! DEFINITION. The KISS/SLIP framer (`43_kiss.md`): the special bytes as the byte-serial reader of a frame runs them, the
commands, and the codec operations. The pure codec functions stand in `Sys2Proof/Decode.lean`. -/

namespace Sys2Proof.Machine

/-! ## Reading a frame byte by byte (R191, R203)

`UNESCAPE` reads a frame from left to right. Between two bytes all it needs to know is whether a `FESC` waits for its second
byte (`Kiss.esc`) and what has come out so far (`Kiss.out`). -/

/-- A byte comes out of the reader. -/
def kissEmit (b : Byte) (s : State) : State :=
  { s with host.kiss.out := s.host.kiss.out ++ [b], host.kiss.esc := false }

/-- The reader starts a frame. -/
def kissStart (s : State) : State := { s with host.kiss.out := [], host.kiss.esc := false }

/-- A delimiter is stripped wherever it stands (R191: every `FEND` is removed before the pairs are read). -/
def onFend (s : State) : State := s

/-- A `FESC` opens a pair; as the second byte of a pair it is kept (R203). -/
def onFesc (s : State) : State :=
  if s.host.kiss.esc then kissEmit FESC s else { s with host.kiss.esc := true }

/-- A `TFEND` after a `FESC` stands for `FEND`; elsewhere it "is an ordinary byte" (R191). -/
def onTfend (s : State) : State := if s.host.kiss.esc then kissEmit FEND s else kissEmit TFEND s

/-- A `TFESC` after a `FESC` stands for `FESC`; elsewhere it "is an ordinary byte" (R191). -/
def onTfesc (s : State) : State := if s.host.kiss.esc then kissEmit FESC s else kissEmit TFESC s

/-- The reader takes one byte: a special byte is run, any other byte comes out unchanged (R191, R203). -/
def kissByte (b : Byte) (s : State) : State :=
  if b = FEND then onFend s
  else if b = FESC then onFesc s
  else if b = TFEND then onTfend s
  else if b = TFESC then onTfesc s
  else kissEmit b s

/-- The reader takes a byte sequence. -/
def kissBytes (bs : Bytes) (s : State) : State := bs.foldl (fun s b => kissByte b s) s

/-- `FEND`, frame delimiter (R78, R190, R191). -/
def execFend (s : State) : Out := .next (onFend s)
/-- `FESC`, escape (R78, R191). -/
def execFesc (s : State) : Out := .next (onFesc s)
/-- `TFEND`, escaped delimiter (R78, R191). -/
def execTfend (s : State) : Out := .next (onTfend s)
/-- `TFESC`, escaped escape (R78, R191). -/
def execTfesc (s : State) : Out := .next (onTfesc s)

/-! ## The commands (R195 to R201) -/

/-- Plain data: the frame is kept for transmission "in its original escaped, delimited form" (R195, R202). -/
def keepFrame (s : State) : State := { s with host.kiss.rem := s.host.kiss.rem ++ s.host.kiss.frame }

/-- Set keyup delay (R196); without a value byte nothing is written. -/
def setKeyup (value : Option Byte) (s : State) : State :=
  match value with
  | some v => { s with host.tnc.keyup := kissDelay s.par v }
  | none => s

/-- Set persistence (R197). -/
def setPersist (value : Option Byte) (s : State) : State :=
  match value with
  | some v => { s with host.tnc.persist := v }
  | none => s

/-- Set slot time (R198). -/
def setSlottime (value : Option Byte) (s : State) : State :=
  match value with
  | some v => { s with host.tnc.slottime := v }
  | none => s

/-- Set tx-tail, the keydown delay (R199). -/
def setKeydown (value : Option Byte) (s : State) : State :=
  match value with
  | some v => { s with host.tnc.keydown := kissDelay s.par v }
  | none => s

/-- Abort-process (R200). -/
def setHalt (s : State) : State := { s with host.sch.halt := true }

/-- `KISS_DATA` (R195). -/
def execKissData (_port : Nibble) (_bytes : Bytes) (s : State) : Out := .next (keepFrame s)
/-- `KISS_TXDELAY` (R196). -/
def execKissTxdelay (_port : Nibble) (value : Option Byte) (s : State) : Out := .next (setKeyup value s)
/-- `KISS_PERSIST` (R197). -/
def execKissPersist (_port : Nibble) (value : Option Byte) (s : State) : Out := .next (setPersist value s)
/-- `KISS_SLOTTIME` (R198). -/
def execKissSlottime (_port : Nibble) (value : Option Byte) (s : State) : Out := .next (setSlottime value s)
/-- `KISS_TXTAIL` (R199). -/
def execKissTxtail (_port : Nibble) (value : Option Byte) (s : State) : Out := .next (setKeydown value s)
/-- `KISS_ABORT` (R200). -/
def execKissAbort (_port : Nibble) (_value : Option Byte) (s : State) : Out := .next (setHalt s)
/-- Codes 5 to 14: the frame is consumed, "no register is written and nothing is logged" (R201). -/
def execKissUnlisted (_port _cmd : Nibble) (_value : Option Byte) (s : State) : Out := .next s

/-- `APPLY_CONFIG(cmd, value)` (R196 to R201, by `cmd`). -/
def applyConfig (cmd : Nibble) (value : Option Byte) (s : State) : State :=
  if cmd = 1 then setKeyup value s
  else if cmd = 2 then setPersist value s
  else if cmd = 3 then setSlottime value s
  else if cmd = 4 then setKeydown value s
  else if cmd = 15 then setHalt s
  else s

/-! ## `KISS_PROCESS` (R202) -/

/-- One frame of the buffer: data is kept, configuration is applied, an empty frame is neither (R202, R204). -/
def kissFrame (frame : Bytes) (s : State) : State :=
  let s := { s with host.kiss.frame := frame }
  match interpretCommand frame with
  | .data _ _ => keepFrame s
  | .config cmd _ value => applyConfig cmd value s
  | .empty => s

/-- The loop of R202, over at most `fuel` frames. Each token leaves a shorter buffer, so the buffer's length is enough. -/
def kissLoop : Nat → Bytes → State → State
  | 0, _, s => s
  | fuel + 1, buf, s =>
    match tokenize buf with
    | none => s
    | some (frame, rest) => kissLoop fuel rest (kissFrame frame s)

/-- The buffer does not start with the delimiter (R202). -/
def noSync (buf : Bytes) : Bool := !buf.isEmpty && buf.headD FEND != FEND

/-- Bytes before the first delimiter are dropped and logged (R202). -/
def resync (buf : Bytes) (s : State) : State := if noSync buf then logEvent .kissNosync s else s

/-- `KISS_PROCESS(buf)`: the remainder stands in `Kiss.rem` (R202). -/
def kissRun (buf : Bytes) (s : State) : State :=
  kissLoop buf.length (buf.dropWhile (· != FEND)) (resync buf { s with host.kiss.rem := [] })

/-- `KISS_PROCESS(buf)` (R202). -/
def execKissProcess (buf : Bytes) (s : State) : Out :=
  let s := kissRun buf s
  .next (setRes (.bytes s.host.kiss.rem) s)

/-! ## The pure operations: each only answers -/

/-- `TOKENIZE(buf)` (R190). -/
def execTokenize (buf : Bytes) (s : State) : Out := .next (setRes (.token (tokenize buf)) s)

/-- `UNESCAPE(frame)` (R191), read byte by byte. -/
def execUnescape (frame : Bytes) (s : State) : Out :=
  let s := kissBytes frame (kissStart s)
  .next (setRes (.bytes s.host.kiss.out) s)

/-- `ESCAPE(payload)` (R192). -/
def execEscape (payload : Bytes) (s : State) : Out := .next (setRes (.bytes (escape payload)) s)

/-- `INTERPRET_COMMAND(frame)` (R194). -/
def execInterpretCommand (frame : Bytes) (s : State) : Out :=
  .next (setRes (.command (interpretCommand frame)) s)

end Sys2Proof.Machine
end

