-- ==== Sys2Proof/Machine/Replies.lean ====
section
/-! DEFINITION. The device-to-host blocks and the reserved types, as the host runs them when a `READ_BLOCK` has read one: the
block becomes `READ_BLOCK`'s result, and the command that waits for it classifies it (`40_transport.md` R113, R114;
`41_segmentation.md` R132, R134; `44_scheduler.md` R229). -/

namespace Sys2Proof.Machine

/-- How the host classifies the answer to a command (R113), with the length test of R77 for answers to TX and RX. -/
def classifyAnswer (c : Cmd) (ty : Byte) (payload : Bytes) : Result :=
  if (c = .tx ∨ c = .rx) ∧ payload.length + 2 < 4 then .fail .notReceived []
  else if ty = typeCode c.blockType then .ok
  else if (c = .tx ∧ ty = typeCode .txKo) ∨ (c = .rx ∧ ty = typeCode .rxKo) then .fail .ko payload
  else .fail .badReply [ty]

/-- The log line of a failed exchange (R132, R134); nothing for the other results. -/
def logFailure (r : Result) (s : State) : State :=
  match r with
  | .timeout => logEvent .timeout s
  | .fail .notReceived _ => logEvent .notReceived s
  | .fail .ko info => logEvent (.ko info) s
  | .fail .badReply info => logEvent (.badReply (info.headD 0)) s
  | .fail .crc _ => logEvent .crc s
  | _ => s

/-- The exchange ends with `r`, logged when it is a failure. -/
def endExchange (r : Result) (s : State) : State := setRes r (logFailure r s)

/-- Attempt `n` of `HOST_INIT` has failed: a second attempt after the first, never a third (R114). -/
def initFailed (n : Nat) (s : State) : State :=
  let s := logEvent .radioInitAttempt s
  if n = 1 then pushTasks [.initAttempt 2] s
  else setRes (.fail .radioInit []) (logEvent .radioInitPersistent s)

/-- `HOST_INIT`'s answer (R114). -/
def answerInit (n : Nat) (ty : Byte) (s : State) : State :=
  if ty = typeCode .init then setRes .ok s else initFailed n s

/-- `SEND_BLOCK`'s answer (R132). -/
def answerTx (ty : Byte) (payload : Bytes) (s : State) : State :=
  endExchange (classifyAnswer .tx ty payload) s

/-- What `RECEIVE_BLOCK` makes of an RX ack (R134): the shape, then the CRC bit, then the countdown and the data. -/
def readDataShape (payload : Bytes) : Result :=
  if payload.length < 3 then .fail .badReply [BitVec.ofNat 8 payload.length]
  else if crcValid payload = false then .fail .crc []
  else .received (payload.headD 0) ((payload.drop 1).take (payload.length - 3))

/-- `RECEIVE_BLOCK`'s result, the tests in the order of R134. -/
def receiveResult (ty : Byte) (payload : Bytes) : Result :=
  match classifyAnswer .rx ty payload with
  | .ok => readDataShape payload
  | r => r

/-- `RECEIVE_BLOCK`'s answer (R134). -/
def answerRx (ty : Byte) (payload : Bytes) (s : State) : State :=
  endExchange (receiveResult ty payload) s

/-- `ARMED <- b`. -/
def setArmed (b : Bool) (s : State) : State := { s with host.sch.armed := b }

/-- `CANCEL_RX`'s answer (R229): the echo ends it, any other block is logged, dropped, and the next one read. It returns no
result. -/
def answerCancel (ty : Byte) (s : State) : State :=
  if ty = typeCode .rxCancel then setArmed false s
  else pushTasks [.call (.readBlock s.host.cfg.tCancel), .awaitCancel] (logEvent (.cancelledRx ty) s)

/-- What the host makes of the answer to command `c` (R113): the block when it is the ack, echo or reply, else the failure. -/
def answerReply (c : Cmd) (ty : Byte) (payload : Bytes) (s : State) : State :=
  match classifyAnswer c ty payload with
  | .ok => setRes (.block ty (BitVec.ofNat 8 payload.length) payload) s
  | r => endExchange r s

/-- `READ_BLOCK` returns a block (R101) to what waits for it; with nothing waiting it is the result. -/
def hostAnswer (ty : Byte) (payload : Bytes) (s : State) : State :=
  match s.host.ctl with
  | .awaitInit n :: k => answerInit n ty (setCtl k s)
  | .awaitTx :: k => answerTx ty payload (setCtl k s)
  | .awaitRx :: k => answerRx ty payload (setCtl k s)
  | .awaitCancel :: k => answerCancel ty (setCtl k s)
  | .awaitReply c :: k => answerReply c ty payload (setCtl k s)
  | _ => setRes (.block ty (BitVec.ofNat 8 payload.length) payload) s

/-- `READ_BLOCK` returns `Timeout` (R281) to what waits for it. -/
def hostTimeout (s : State) : State :=
  match s.host.ctl with
  | .awaitInit n :: k => initFailed n (setCtl k s)
  | .awaitTx :: k => endExchange .timeout (setCtl k s)
  | .awaitRx :: k => endExchange .timeout (setCtl k s)
  | .awaitCancel :: k => setArmed false (logEvent .timeout (setCtl k s))
  | .awaitReply _ :: k => endExchange .timeout (setCtl k s)
  | _ => setRes .timeout s

/-! ## The meanings -/

/-- The INIT echo (R76, R105), read by the host (R113, R114). -/
def execInitEcho (payload : Bytes) (s : State) : Out := .next (hostAnswer (typeCode .init) payload s)
/-- The TX ack (R73, R155), read by the host (R132). -/
def execTxAck (payload : Bytes) (s : State) : Out := .next (hostAnswer (typeCode .tx) payload s)
/-- The RX ack (R74, R158), read by the host (R134). -/
def execRxAck (payload : Bytes) (s : State) : Out := .next (hostAnswer (typeCode .rx) payload s)
/-- The RX_CANCEL echo (R76, R108), read by the host (R229). -/
def execRxCancelEcho (payload : Bytes) (s : State) : Out := .next (hostAnswer (typeCode .rxCancel) payload s)
/-- The RADIO_STATUS reply (R76, R109), read by the host (R113). -/
def execRadioStatusReply (payload : Bytes) (s : State) : Out := .next (hostAnswer (typeCode .radioStatus) payload s)
/-- The ECHO_TEST reply (R76, R110), read by the host (R113). -/
def execEchoTestReply (payload : Bytes) (s : State) : Out := .next (hostAnswer (typeCode .echoTest) payload s)
/-- The TX_KO block (R73, R155), read by the host (R132, R288). -/
def execTxKo (payload : Bytes) (s : State) : Out := .next (hostAnswer (typeCode .txKo) payload s)
/-- The RX_KO block (R73, R158), read by the host (R134, R288). -/
def execRxKo (payload : Bytes) (s : State) : Out := .next (hostAnswer (typeCode .rxKo) payload s)

/-- A block of a type its direction does not know (R83 (a)): the device ignores it (R111), the host takes it as an answer of
an unexpected type (R113). -/
def execBlockReserved (dir : Dir) (ty : Byte) (payload : Bytes) (s : State) : Out :=
  match dir with
  | .h2d => .next (ignoreCommand s)
  | .d2h => .next (hostAnswer ty payload s)

end Sys2Proof.Machine
end

