-- ==== Sys2Proof/Machine/Transport.lean ====
section
/-! DEFINITION. The USB block transport (`40_transport.md`): `SEND_COMMAND`, `READ_BLOCK`, `HOST_INIT`, `DEV_RECV`,
`DEV_DISPATCH`, `DEV_SEND`. -/

namespace Sys2Proof.Machine

/-! ## Host -/

/-- The host reader takes one byte, latching the size with the second (R101). -/
def trhPush (t : Trh) (b : Byte) : Trh :=
  let acc := t.acc ++ [b]
  if t.expv = false ∧ 2 ≤ acc.length then { t with acc := acc, exp := acc.getD 1 0, expv := true }
  else { t with acc := acc }

/-- One poll takes bytes one at a time while the block is incomplete, never one beyond its end (R101). -/
def pollBytes (t : Trh) : Bytes → Trh × Bytes
  | [] => (t, [])
  | b :: rest => if Trh.complete t then (t, b :: rest) else pollBytes (trhPush t b) rest

/-- The host runs the block it has read, by its type (R71, R113). -/
def replyDispatch (code : Byte) (payload : Bytes) (s : State) : Out :=
  match blockTypeOf code with
  | some .init => execInitEcho payload s
  | some .tx => execTxAck payload s
  | some .rx => execRxAck payload s
  | some .rxCancel => execRxCancelEcho payload s
  | some .radioStatus => execRadioStatusReply payload s
  | some .echoTest => execEchoTestReply payload s
  | some .txKo => execTxKo payload s
  | some .rxKo => execRxKo payload s
  | none => execBlockReserved .d2h code payload s

/-- One poll of `READ_BLOCK` (R101): the completeness test before the budget test; on `Timeout` the bytes taken are
discarded; otherwise a sleep and another poll follow. `TRH` is live only during one `READ_BLOCK` (R26) and "unspecified between
operations" (R39): DESIGN CHOICE (log entry 28), the finished read's content stays in it. -/
def pollOp (s : State) : Out :=
  let r := pollBytes s.host.trh s.lD2H.avail
  let s := { s with host.trh := r.1, lD2H.avail := r.2 }
  if Trh.complete r.1 then replyDispatch (r.1.acc.headD 0) (r.1.acc.drop 2) s
  else if r.1.budget = 0 then .next (hostTimeout { s with host.trh.acc := [] })
  else .next (pushTasks [.pollSleep, .poll] s)

/-- The sleep between two polls: `min(POLL_SLEEP, BUDGET)` ticks, taken off the budget (R101). -/
def pollSleepOp (s : State) : State :=
  let n := min s.par.pollSleep s.host.trh.budget
  sleepOp n { s with host.trh.budget := s.host.trh.budget - n }

/-- One attempt of `HOST_INIT` (R114): send the record, then read the answer. -/
def initAttemptOp (n : Nat) (s : State) : State :=
  pushTasks [.call (.readBlock s.host.cfg.tInit), .awaitInit n] (sendCommandOp .init s.host.cfg.parms s)

/-- The time-out of the answer to a command (R5). -/
def answerTimeout (c : Cmd) (cfg : Cfg) : Nat :=
  match c with
  | .init => cfg.tInit
  | .tx => cfg.tAck
  | .rx => cfg.tFirst
  | .rxCancel => cfg.tCancel
  | .radioStatus => cfg.tStatus
  | .echoTest => cfg.tStatus

/-- Send a command and read its answer (R113); a payload `SEND_COMMAND` refuses ends it with that result (R100). -/
def exchangeOp (c : Cmd) (payload : Bytes) (s : State) : State :=
  if payload.length ≤ 255 then
    pushTasks [.call (.readBlock (answerTimeout c s.host.cfg)), .awaitReply c] (sendCommandOp c payload s)
  else sendCommandOp c payload s

/-- The host is between two operations: it has nothing to do, has not called `SCHED_START` yet, or stands between two iterations
of the loop. No task that reads the last operation's result (R10) is then to come, and no command is unanswered but an RX (R57). -/
def hostBetween : List Task → Bool
  | [] => true
  | [.call .schedStart] => true
  | [.call .schedLoop] => true
  | [.sleep _, .call .schedLoop] => true
  | _ => false

/-- A command of which no operation of the block reads the answer. The others have theirs: `HOST_INIT` (R114), `SEND_BLOCK` (R132),
`RECEIVE_BLOCK` (R134), `CANCEL_RX` (R229). -/
def ownExchange : Cmd → Bool
  | .radioStatus => true
  | .echoTest => true
  | _ => false

/-- The host is asked for an exchange. DESIGN CHOICE (log entry 30): it comes next when the command is RADIO_STATUS or ECHO_TEST, the
host is between two operations and no RX command is outstanding, while which "the only command the host sends" is that of `CANCEL_RX`
(R57). So it neither streams nor comes inside an operation, whose result it would overwrite. -/
def askExchange (c : Cmd) (payload : Bytes) (s : State) : State :=
  if ownExchange c && hostBetween s.host.ctl && !s.host.sch.armed then pushTasks [.exchange c payload] s else s

/-- `SEND_COMMAND(type, payload)` (R100). -/
def execSendCommand (c : Cmd) (payload : Bytes) (s : State) : Out := .next (sendCommandOp c payload s)

/-- `READ_BLOCK(timeout)` (R101): a fresh accumulator and the first poll. -/
def execReadBlock (timeout : Nat) (s : State) : Out :=
  pollOp { s with host.trh := { s.host.trh with acc := [], expv := false, budget := timeout } }

/-- `HOST_INIT()` (R114): its first attempt. -/
def execHostInit (s : State) : Out := .next (initAttemptOp 1 s)

/-! ## Device -/

/-- The device receiver takes one byte, latching the size with the second (R103). -/
def trdPush (t : Trd) (b : Byte) : Trd :=
  let acc := t.acc ++ [b]
  if t.expv = false ∧ 2 ≤ acc.length then { t with acc := acc, exp := acc.getD 1 0, expv := true }
  else { t with acc := acc }

/-- `DEV_DISPATCH(type, payload)` selects by the type byte alone (R104). -/
def commandDispatch (code : Byte) (payload : Bytes) (s : State) : Out :=
  match blockTypeOf code with
  | some .init => execInit payload s
  | some .tx => execTx payload s
  | some .rx => execRx payload s
  | some .rxCancel => execRxCancel payload s
  | some .radioStatus => execRadioStatus payload s
  | some .echoTest => execEchoTest payload s
  | some .txKo => execBlockReserved .h2d code payload s
  | some .rxKo => execBlockReserved .h2d code payload s
  | none => execBlockReserved .h2d code payload s

/-- After a dispatch the receiver starts afresh (R103). -/
def trdClear (s : State) : State := { s with dev.trd.acc := [], dev.trd.expv := false }

/-- `DEV_RECV` (R103): one byte from the link; the complete block is dispatched inside the interrupt bracket. With no byte
available the step is not enabled, and nothing happens. -/
def execDevRecv (s : State) : Out :=
  match s.lH2D.avail with
  | [] => .next s
  | b :: rest =>
    let t := trdPush s.dev.trd b
    let s := { s with dev.trd := t, lH2D.avail := rest }
    if Trd.complete t then
      andThen (bracket (commandDispatch (t.acc.headD 0) (t.acc.drop 2)) s) fun s => .next (trdClear s)
    else .next s

/-- `DEV_DISPATCH(type, payload)` (R104). -/
def execDevDispatch (code : Byte) (payload : Bytes) (s : State) : Out := commandDispatch code payload s

/-- `DEV_SEND` (R112): the block at the head of `OUTQ` goes to the link, whole. With `OUTQ` empty the step is not enabled,
and nothing happens. -/
def execDevSend (s : State) : Out :=
  match s.dev.outq with
  | [] => .next s
  | b :: rest => bracket (fun s => .next (putD2H b { s with dev.outq := rest })) s

end Sys2Proof.Machine
end

