-- ==== Sys2Proof/Machine/Segment.lean ====
section
/-! DEFINITION. The packet segmentation engine (`41_segmentation.md`): `SEND_PACKET`, `SEND_BLOCK`, `RECEIVE_PACKET`,
`RECEIVE_BLOCK`. Each does its first atomic step (R9) and leaves what follows on the host's control list. -/

namespace Sys2Proof.Machine

/-- `SEND_BLOCK(cd, chunk)` (R132): send the TX block, then read the answer. -/
def sendBlockOp (cd : Byte) (chunk : Bytes) (s : State) : State :=
  pushTasks [.call (.readBlock s.host.cfg.tAck), .awaitTx] (sendCommandOp .tx (cd :: chunk) s)

/-- The next block of a packet, number `SEG.IDX` (R131). -/
def packetBlockOp (payload : Bytes) (b delay : Nat) (s : State) : State :=
  pushTasks [.packetSent payload b delay]
    s |> sendBlockOp (countdownOf s.host.seg.nblk s.host.seg.idx) (blockData payload b s.host.seg.idx)

/-- After a block of a packet has been answered (R131): the next one, after `delay` ticks "between blocks"; `Ok` after the
last; a failure ends the whole send. -/
def packetSentOp (payload : Bytes) (b delay : Nat) (s : State) : State :=
  match s.host.res with
  | .ok =>
    let s := { s with host.seg.idx := s.host.seg.idx + 1 }
    if s.host.seg.idx < s.host.seg.nblk then
      pushTasks ((if delay > 0 then [.sleep delay] else []) ++ [.packetBlock payload b delay]) s
    else setRes .ok s
  | _ => s

/-- `RECEIVE_BLOCK(B, t, skip_send)` (R134): send the RX command unless one is outstanding, then read the answer. -/
def receiveBlockOp (b : Byte) (t : Nat) (skipSend : Bool) (s : State) : State :=
  pushTasks [.call (.readBlock t), .awaitRx] (if skipSend then s else sendCommandOp .rx [b] s)

/-- The next block of a received packet (R133). -/
def nextReceive (b t tInter : Nat) (skipSend : Bool) (s : State) : State :=
  pushTasks [.call (.receiveBlock (BitVec.ofNat 8 b) t skipSend), .blockReceived b tInter] s

/-- The received packet is discarded whole (R133). -/
def discardAsm (s : State) : State := { s with host.seg.asm := [] }

/-- After a block of a packet has been received (R133, R135). R133 "does not check `len data` against `B` − 2", so a block may take
`SEG.ASM` past the capacity R27 and R50 give it: DESIGN CHOICE (log entry 29), it is appended all the same. -/
def blockReceivedOp (b tInter : Nat) (s : State) : State :=
  match s.host.res with
  | .received cd data =>
    let s := { s with host.seg.nread := s.host.seg.nread + 1 }
    let s := if s.host.seg.nread = 1 then { s with host.seg.expcnt := cd.toNat + 1 } else s
    if s.host.seg.nread = 1 ∨ seqOk cd s.host.seg.expcnt s.host.seg.nread = true then
      let s := appendBuffer .asm data s
      if cd = 0 then setRes (.packet s.host.seg.asm) s else nextReceive b tInter tInter false s
    else setRes (.fail .seq [cd]) (logEvent (.seq cd) (discardAsm s))
  | _ => discardAsm s

/-- `SEND_PACKET(payload, B, delay)` (R131): refused outside its limits; an empty payload sends nothing and is `Ok`. -/
def execSendPacket (payload : Bytes) (b delay : Nat) (s : State) : Out :=
  if packetFits payload b = false then .next (setRes (.fail .refused []) s)
  else
    let s := { s with host.seg.nblk := blockCount payload.length b, host.seg.idx := 0 }
    if s.host.seg.nblk = 0 then .next (setRes .ok s) else .next (packetBlockOp payload b delay s)

/-- `SEND_BLOCK(cd, chunk)` (R132); refused with a chunk that makes no block (R137, R100; log entry 15). -/
def execSendBlock (cd : Byte) (chunk : Bytes) (s : State) : Out :=
  if chunk.length ≤ 254 then .next (sendBlockOp cd chunk s) else .next (setRes (.fail .refused []) s)

/-- `RECEIVE_PACKET(B, t_first, t_inter, armed)` (R133); refused with `B` outside 3..253 (R137; log entry 15). -/
def execReceivePacket (b tFirst tInter : Nat) (armed : Bool) (s : State) : Out :=
  if blockSizeOk b = false then .next (setRes (.fail .refused []) s)
  else .next (nextReceive b tFirst tInter armed { s with host.seg.asm := [], host.seg.nread := 0 })

/-- `RECEIVE_BLOCK(B, t, skip_send)` (R134); refused with `B` outside 3..253 (R137; log entry 15). -/
def execReceiveBlock (b : Byte) (t : Nat) (skipSend : Bool) (s : State) : Out :=
  if blockSizeOk b.toNat then .next (receiveBlockOp b t skipSend s) else .next (setRes (.fail .refused []) s)

end Sys2Proof.Machine
end

