-- ==== Sys2Proof/Machine/Scheduler.lean ====
section
/-! DEFINITION. The half-duplex scheduler (`44_scheduler.md`): its loop, its five steps and their helpers. Each operation does
its first atomic step (R9) and leaves what follows on the host's control list. -/

namespace Sys2Proof.Machine

/-- `CLEAR_STATE(side)` (R227): the flushed buffer, both triggers, the tri-state; the other buffer and `TLAST` stay. -/
def clearStateOp (side : Side) (s : State) : State :=
  let s :=
    match side with
    | .r => { s with host.sch.rbuf := [] }
    | .t => { s with host.sch.tbuf := [] }
  { s with host.sch.rxtrig := false, host.sch.txtrig := false, host.sch.tri := .idle }

/-- `ARM_RX` (R228). -/
def armRxOp (s : State) : State := setArmed true (sendCommandOp .rx [BitVec.ofNat 8 s.host.cfg.b] s)

/-- `CANCEL_RX` (R229): send the cancel, then read until the echo. -/
def cancelRxOp (s : State) : State :=
  pushTasks [.call (.readBlock s.host.cfg.tCancel), .awaitCancel] (sendCommandOp .rxCancel [] s)

/-- `FLUSH_R` (R230): forward the radio buffer byte for byte, clear, re-arm unless armed or halted. -/
def flushROp (s : State) : State :=
  let s := clearStateOp .r { s with termOut := s.termOut ++ s.host.sch.rbuf }
  if s.host.sch.armed = false ∧ s.host.sch.halt = false then pushTasks [.call .armRx] s else s

/-- The end of `FLUSH_T` (R231): clear and re-arm unless halted. -/
def flushTEndOp (s : State) : State :=
  let s := clearStateOp .t s
  if s.host.sch.halt = false then pushTasks [.call .armRx] s else s

/-- The middle of `FLUSH_T` (R231): run the framer; a remainder is sent as a packet after the keyup delay now in force. -/
def flushTProcessOp (s : State) : State :=
  let s := kissRun s.host.sch.tbuf s
  if s.host.kiss.rem.isEmpty then flushTEndOp s
  else
    pushTasks
      [.sleep s.host.tnc.keyup, .call (.sendPacket s.host.kiss.rem s.host.cfg.b s.host.cfg.blkDelay), .flushTSent] s

/-- After the packet of `FLUSH_T` (R231): the keydown delay after a good one, a cancel after a `Timeout`. -/
def flushTSentOp (s : State) : State :=
  match s.host.res with
  | .ok => pushTasks [.sleep s.host.tnc.keydown, .flushTEnd] s
  | .timeout => pushTasks [.call .cancelRx, .flushTEnd] s
  | _ => flushTEndOp s

/-- `FLUSH_T` (R231): an outstanding reception is cancelled first. -/
def flushTOp (s : State) : State :=
  if s.host.sch.armed then pushTasks [.call .cancelRx, .flushTProcess] s else flushTProcessOp s

/-- The scheduler is at step `n` (R21 (c)). -/
def atStep (n : Nat) (s : State) : State := { s with host.sch.stepNo := n }

/-- `STEP1` after `RECEIVE_PACKET` (R221). -/
def step1DoneOp (s : State) : State :=
  let s := setArmed false s
  match s.host.res with
  | .packet p =>
    if p.isEmpty then pushTasks [.call .armRx] s
    else if s.host.sch.rbuf.length + p.length ≤ s.par.rbufCap then
      let s := appendBuffer .rbuf p s
      { s with
        host.sch.tri := .rxActive
        host.sch.tlast := s.now
        host.sch.rxtrig := s.host.sch.rxtrig || decide (s.host.sch.tri = .txActive) }
    else pushTasks [.call .armRx] (logEvent (.bufOverflow p.length) s)
  | .timeout => pushTasks [.call .cancelRx, .call .armRx] s
  | _ => pushTasks [.call .armRx] s

/-- The end of an iteration (R220): return when halted, else sleep and go round again. -/
def loopTailOp (s : State) : State :=
  if s.host.sch.halt then s else pushTasks [.sleep s.par.pollSleep, .call .schedLoop] s

/-! ## The meanings -/

/-- `SCHED_START` (R237). -/
def execSchedStart (s : State) : Out :=
  .next (pushTasks [.call .hostInit, .call .armRx, .call .schedLoop] { s with host.sch := Sch.reset s.now })

/-- `SCHED_LOOP` (R220): the five steps in order, then the end of the iteration. -/
def execSchedLoop (s : State) : Out :=
  .next (pushTasks [.call .step1, .call .step2, .call .step3, .call .step4, .call .step5, .loopTail] s)

/-- `STEP1` (R221): poll the radio side. -/
def execStep1 (s : State) : Out :=
  let s := atStep 1 s
  if s.host.sch.armed ∧ chanAvail s.lD2H > 0 then
    let c := s.host.cfg
    .next (pushTasks [.call (.receivePacket c.b c.tFirst c.tInter true), .step1Done] s)
  else .next s

/-- The bytes `STEP2` takes: those that fit `TBUF` (R222). -/
def step2Take (s : State) : Nat := min s.termIn.length (s.par.tbufCap - s.host.sch.tbuf.length)

/-- `STEP2` (R222): poll the terminal side. -/
def execStep2 (s : State) : Out :=
  let s := atStep 2 s
  let k := step2Take s
  if k > 0 then
    let d := s.termIn.take k
    let s := appendBuffer .tbuf d { s with termIn := s.termIn.drop k }
    .next
      { s with
        host.sch.tri := .txActive
        host.sch.tlast := s.now
        host.sch.txtrig := s.host.sch.txtrig || decide (s.host.sch.tri = .rxActive) }
  else .next s

/-- The condition of `STEP3` (R223). -/
def step3Fires (s : State) : Bool :=
  !s.host.sch.rbuf.isEmpty && (s.host.sch.rxtrig || elapsedW s.host.cfg.radioWin s)

/-- `STEP3` (R223): radio to terminal. -/
def execStep3 (s : State) : Out :=
  let s := atStep 3 s
  .next (if step3Fires s then flushROp s else s)

/-- The condition of `STEP4` (R224). -/
def step4Fires (s : State) : Bool :=
  !s.host.sch.tbuf.isEmpty && (s.host.sch.txtrig || elapsedW s.host.cfg.serialWin s)

/-- `STEP4` (R224): terminal to radio. -/
def execStep4 (s : State) : Out :=
  let s := atStep 4 s
  .next (if step4Fires s then flushTOp s else s)

/-- The radio-side condition of `STEP5` (R225). -/
def step5FiresR (s : State) : Bool := decide (s.host.sch.tri = .rxActive) && forcedW s.host.cfg.radioWin s

/-- The terminal-side condition of `STEP5` (R225). -/
def step5FiresT (s : State) : Bool := decide (s.host.sch.tri = .txActive) && forcedW s.host.cfg.serialWin s

/-- `STEP5` (R225): forced flush, the radio-side test first (R233). -/
def execStep5 (s : State) : Out :=
  let s := atStep 5 s
  if s.host.sch.rxtrig = false ∧ s.host.sch.txtrig = false then
    let s := if step5FiresR s then flushROp s else s
    .next (if step5FiresT s then flushTOp s else s)
  else .next s

/-- `elapsed(W)` (R226). -/
def execElapsed (w : Nat) (s : State) : Out := .next (setRes (.flag (elapsedW w s)) s)

/-- `CLEAR_STATE(side)` (R227). -/
def execClearState (side : Side) (s : State) : Out := .next (clearStateOp side s)

/-- `ARM_RX` (R228). -/
def execArmRx (s : State) : Out := .next (armRxOp s)

/-- `CANCEL_RX` (R229). -/
def execCancelRx (s : State) : Out := .next (cancelRxOp s)

/-- `FLUSH_R` (R230). -/
def execFlushR (s : State) : Out := .next (flushROp s)

/-- `FLUSH_T` (R231). -/
def execFlushT (s : State) : Out := .next (flushTOp s)

end Sys2Proof.Machine
end

