-- ==== Sys2Proof/Machine/Dispatch.lean ====
section
/-! DEFINITION. The meaning of every instruction: one arm per constructor of `Instr`, each a call of its meaning. -/

namespace Sys2Proof.Machine

def exec (i : Instr) (s : State) : Host.Outcome State Fault Refusal :=
  match i with
  | .init payload => Sys2Proof.Machine.execInit payload s
  | .tx payload => Sys2Proof.Machine.execTx payload s
  | .rx payload => Sys2Proof.Machine.execRx payload s
  | .rxCancel payload => Sys2Proof.Machine.execRxCancel payload s
  | .radioStatus payload => Sys2Proof.Machine.execRadioStatus payload s
  | .echoTest payload => Sys2Proof.Machine.execEchoTest payload s
  | .initEcho payload => Sys2Proof.Machine.execInitEcho payload s
  | .txAck payload => Sys2Proof.Machine.execTxAck payload s
  | .rxAck payload => Sys2Proof.Machine.execRxAck payload s
  | .rxCancelEcho payload => Sys2Proof.Machine.execRxCancelEcho payload s
  | .radioStatusReply payload => Sys2Proof.Machine.execRadioStatusReply payload s
  | .echoTestReply payload => Sys2Proof.Machine.execEchoTestReply payload s
  | .txKo payload => Sys2Proof.Machine.execTxKo payload s
  | .rxKo payload => Sys2Proof.Machine.execRxKo payload s
  | .blockReserved dir ty payload => Sys2Proof.Machine.execBlockReserved dir ty payload s
  | .stOk => Sys2Proof.Machine.execStOk s
  | .stTxUnderflow => Sys2Proof.Machine.execStTxUnderflow s
  | .stTxNotEmpty => Sys2Proof.Machine.execStTxNotEmpty s
  | .stRxOverflow => Sys2Proof.Machine.execStRxOverflow s
  | .fend => Sys2Proof.Machine.execFend s
  | .fesc => Sys2Proof.Machine.execFesc s
  | .tfend => Sys2Proof.Machine.execTfend s
  | .tfesc => Sys2Proof.Machine.execTfesc s
  | .kissData port bytes => Sys2Proof.Machine.execKissData port bytes s
  | .kissTxdelay port value => Sys2Proof.Machine.execKissTxdelay port value s
  | .kissPersist port value => Sys2Proof.Machine.execKissPersist port value s
  | .kissSlottime port value => Sys2Proof.Machine.execKissSlottime port value s
  | .kissTxtail port value => Sys2Proof.Machine.execKissTxtail port value s
  | .kissAbort port value => Sys2Proof.Machine.execKissAbort port value s
  | .kissUnlisted port cmd value => Sys2Proof.Machine.execKissUnlisted port cmd value s
  | .evPktRise => Sys2Proof.Machine.execEvPktRise s
  | .evPktFall => Sys2Proof.Machine.execEvPktFall s
  | .evThrRise => Sys2Proof.Machine.execEvThrRise s
  | .evThrFall => Sys2Proof.Machine.execEvThrFall s
  | .evCancel => Sys2Proof.Machine.execEvCancel s
  | .evTxStart payload => Sys2Proof.Machine.execEvTxStart payload s
  | .evRxStart rxlen => Sys2Proof.Machine.execEvRxStart rxlen s
  | .sendCommand cmd payload => Sys2Proof.Machine.execSendCommand cmd payload s
  | .readBlock timeout => Sys2Proof.Machine.execReadBlock timeout s
  | .hostInit => Sys2Proof.Machine.execHostInit s
  | .devRecv => Sys2Proof.Machine.execDevRecv s
  | .devDispatch ty payload => Sys2Proof.Machine.execDevDispatch ty payload s
  | .devSend => Sys2Proof.Machine.execDevSend s
  | .sendPacket payload b delay => Sys2Proof.Machine.execSendPacket payload b delay s
  | .sendBlock cd chunk => Sys2Proof.Machine.execSendBlock cd chunk s
  | .receivePacket b tFirst tInter armed => Sys2Proof.Machine.execReceivePacket b tFirst tInter armed s
  | .receiveBlock b timeout skipSend => Sys2Proof.Machine.execReceiveBlock b timeout skipSend s
  | .strStep ev => Sys2Proof.Machine.execStrStep ev s
  | .stopLines => Sys2Proof.Machine.execStopLines s
  | .composeStatus ty st => Sys2Proof.Machine.execComposeStatus ty st s
  | .composeData ty bytes => Sys2Proof.Machine.execComposeData ty bytes s
  | .tokenize buf => Sys2Proof.Machine.execTokenize buf s
  | .unescape frame => Sys2Proof.Machine.execUnescape frame s
  | .escape payload => Sys2Proof.Machine.execEscape payload s
  | .interpretCommand frame => Sys2Proof.Machine.execInterpretCommand frame s
  | .kissProcess buf => Sys2Proof.Machine.execKissProcess buf s
  | .schedStart => Sys2Proof.Machine.execSchedStart s
  | .schedLoop => Sys2Proof.Machine.execSchedLoop s
  | .step1 => Sys2Proof.Machine.execStep1 s
  | .step2 => Sys2Proof.Machine.execStep2 s
  | .step3 => Sys2Proof.Machine.execStep3 s
  | .step4 => Sys2Proof.Machine.execStep4 s
  | .step5 => Sys2Proof.Machine.execStep5 s
  | .elapsed w => Sys2Proof.Machine.execElapsed w s
  | .clearState side => Sys2Proof.Machine.execClearState side s
  | .armRx => Sys2Proof.Machine.execArmRx s
  | .cancelRx => Sys2Proof.Machine.execCancelRx s
  | .flushR => Sys2Proof.Machine.execFlushR s
  | .flushT => Sys2Proof.Machine.execFlushT s
  | .isrPkt => Sys2Proof.Machine.execIsrPkt s
  | .isrThr => Sys2Proof.Machine.execIsrThr s

end Sys2Proof.Machine
end

