-- ==== Sys2Proof/Machine/Environment.lean ====
section
/-! DEFINITION. The environment's agents (R9): the reference radio (R301, R302), the link, the terminal, the clock, the start of either half. -/

namespace Sys2Proof.Machine

/-- The radio has a step to take on its own (R301, R302). -/
def radioReady (s : State) : Bool :=
  match s.radio.rstate with
  | .idle => false
  | .tx => true
  | .rx => s.radio.inPkt

/-- A step of the radio while it transmits: steps (1) to (4) of R301. -/
def radioTxStep (s : State) : State :=
  if s.radio.synced = false then setLine .pkt true { s with radio.synced := true }
  else if s.radio.sent < s.radio.airLen then
    match s.radio.txFifo with
    | b :: rest =>
      updateThr
        { s with
          radio.txFifo := rest
          radio.sent := s.radio.sent + 1
          radio.aired := s.radio.aired ++ [b] }
    | [] => { setLine .pkt false { s with radio.txUnf := true } with radio.rstate := .idle }
  else { setLine .pkt false s with radio.rstate := .idle }

/-- A step of the radio while it receives a packet: steps (2) and (3) of R302. -/
def radioRxStep (s : State) : State :=
  match s.radio.q with
  | b :: rest =>
    if rxCount s < s.par.fifoSize then
      updateThr { s with radio.rxFifo := s.radio.rxFifo ++ [b], radio.q := rest }
    else { s with radio.rxOvf := true, radio.q := [] }
  | [] => { setLine .pkt false s with radio.rstate := .idle }

/-- The radio's next step, if it has one. -/
def radioStep (s : State) : State :=
  match s.radio.rstate with
  | .idle => s
  | .tx => radioTxStep s
  | .rx => if s.radio.inPkt then radioRxStep s else s

/-- A packet from the air: step (1) of R302. "No packet is presented while `RSTATE` ≠ `R_RX`", nor a second one during
another, nor an empty one. -/
def airPacket (air : Bytes) (rssi crclqi : Byte) (s : State) : State :=
  if s.radio.rstate = .rx ∧ s.radio.inPkt = false ∧ air ≠ [] then
    { setLine .pkt true s with radio.inPkt := true, radio.q := air ++ [rssi, crclqi] }
  else s

/-- The environment chooses the next transmission's `AIRLEN`, at least 1 (R301). -/
def chooseAirLen (a : Option Nat) (s : State) : State :=
  if a = some 0 then s else { s with radio.airSel := a }

/-- `LINK` on `L_H2D` (R9, R56). -/
def linkH2D (k : Nat) (s : State) : State := { s with lH2D := chanDeliver s.lH2D k }

/-- `LINK` on `L_D2H` (R9, R56). -/
def linkD2H (k : Nat) (s : State) : State := { s with lD2H := chanDeliver s.lD2H k }

/-- `TERMINAL` puts bytes on `TERM_IN` (R9). -/
def termPut (b : Bytes) (s : State) : State := { s with termIn := s.termIn ++ b }

/-- `TERMINAL` takes bytes from `TERM_OUT` (R9). -/
def termTake (k : Nat) (s : State) : State := { s with termOut := s.termOut.drop k }

/-- `CLOCK` (R8): `now` "never decreases". -/
def clockTick (n : Nat) (s : State) : State := { s with now := s.now + n }

/-- A channel with nothing in it. -/
def Chan.empty : Chan := { avail := [], flight := [] }

/-- Device power-up (R330 (b)): the device half at its reset values (R39), of which "nothing survives" (R40), the radio idle with both
FIFOs empty. "The channels are empty at start": what was sent to a device that is not up is lost (R332; log entry 21). `DEV.PARMS` and
the other GPIO bits are unspecified and hold zeros (log entries 3, 7). -/
def powerUp (s : State) : State :=
  { s with
    dev := { DevHalf.reset with parms := List.replicate s.par.parmsLen 0 }
    radio := { s.radio with rstate := .idle, txFifo := [], rxFifo := [], txUnf := false, rxOvf := false }
    lH2D := Chan.empty
    lD2H := Chan.empty }

/-- Host process start (R330 (a)): the host half at its reset values (R39), of which "nothing survives" (R40), `KEYUP` and `KEYDOWN` as
the external configuration supplies them, the channels empty, `SCHED_START` next (R332). The registers of R25 have the values they had:
DESIGN CHOICE (log entry 21). What R39 leaves unspecified is as at reset (log entry 7). -/
def hostStart (keyup keydown : Nat) (s : State) : State :=
  { s with
    host :=
      { HostHalf.reset with
        sch := Sch.reset s.now
        tnc := { HostHalf.reset.tnc with keyup := keyup, keydown := keydown }
        cfg := s.host.cfg }
    lH2D := Chan.empty
    lD2H := Chan.empty
    termIn := []
    termOut := [] }

/-- The prompt schedule of `95_test_vectors.md` section 0, used when the agenda is empty: handlers, then the link and the
device's main loop, then the radio, then the host; `none` when nobody has a step. DESIGN CHOICE (log entry 8). -/
def promptTurn (s : State) : Option Turn :=
  if isrEnabled .pkt s && irqAllowed .pkt s then some .isrPkt
  else if isrEnabled .thr s then some .isrThr
  else if !s.lH2D.flight.isEmpty then some (.linkH2D s.lH2D.flight.length)
  else if !s.lH2D.avail.isEmpty then some .devRecv
  else if !s.dev.outq.isEmpty then some .devSend
  else if !s.lD2H.flight.isEmpty then some (.linkD2H s.lD2H.flight.length)
  else if radioReady s then some .radio
  else if !s.host.ctl.isEmpty then some .host
  else none

end Sys2Proof.Machine
end

