-- ==== Sys2Proof/Machine/HostTasks.lean ====
section
/-! DEFINITION. What follows a call on the host's control list once the call has answered (R9: the host's atomic steps); which half runs an
instruction, and what a call outside its operands' limits does. -/

namespace Sys2Proof.Machine

/-- The host operations and the instructions the host runs inside them (R20, R113, R191, R202). -/
def hostOp : Instr → Bool
  | .initEcho _ => true
  | .txAck _ => true
  | .rxAck _ => true
  | .rxCancelEcho _ => true
  | .radioStatusReply _ => true
  | .echoTestReply _ => true
  | .txKo _ => true
  | .rxKo _ => true
  | .blockReserved .d2h _ _ => true
  | .fend => true
  | .fesc => true
  | .tfend => true
  | .tfesc => true
  | .kissData _ _ => true
  | .kissTxdelay _ _ => true
  | .kissPersist _ _ => true
  | .kissSlottime _ _ => true
  | .kissTxtail _ _ => true
  | .kissAbort _ _ => true
  | .kissUnlisted _ _ _ => true
  | .sendCommand _ _ => true
  | .readBlock _ => true
  | .hostInit => true
  | .sendPacket _ _ _ => true
  | .sendBlock _ _ => true
  | .receivePacket _ _ _ _ => true
  | .receiveBlock _ _ _ => true
  | .tokenize _ => true
  | .unescape _ => true
  | .escape _ => true
  | .interpretCommand _ => true
  | .kissProcess _ => true
  | .schedStart => true
  | .schedLoop => true
  | .step1 => true
  | .step2 => true
  | .step3 => true
  | .step4 => true
  | .step5 => true
  | .elapsed _ => true
  | .clearState _ => true
  | .armRx => true
  | .cancelRx => true
  | .flushR => true
  | .flushT => true
  | .blockReserved .h2d _ _ => false
  | .init _ => false
  | .tx _ => false
  | .rx _ => false
  | .rxCancel _ => false
  | .radioStatus _ => false
  | .echoTest _ => false
  | .stOk => false
  | .stTxUnderflow => false
  | .stTxNotEmpty => false
  | .stRxOverflow => false
  | .evPktRise => false
  | .evPktFall => false
  | .evThrRise => false
  | .evThrFall => false
  | .evCancel => false
  | .evTxStart _ => false
  | .evRxStart _ => false
  | .devRecv => false
  | .devDispatch _ _ => false
  | .devSend => false
  | .strStep _ => false
  | .stopLines => false
  | .composeStatus _ _ => false
  | .composeData _ _ => false
  | .isrPkt => false
  | .isrThr => false

/-- A call whose operands are outside the limits the spec gives them does nothing (`93_implementation_defined.md` row 13: `refuse`).
DESIGN CHOICE (log entry 14): a host operation answers `Fail(REFUSED)` (R289); the device half, which answers nobody, ignores the
input (R111, R160). -/
def refuseCall (i : Instr) (s : State) : Out :=
  .next (if hostOp i then setRes (.fail .refused []) s else ignoreCommand s)

/-- Run a task that is not a call. A task that waits for an answer is run by the `READ_BLOCK` before it
(`hostAnswer`, `hostTimeout`); reached without one it does nothing. -/
def runTask (t : Task) (s : State) : Out :=
  match t with
  | .call _ => .next s
  | .poll => pollOp s
  | .pollSleep => .next (pollSleepOp s)
  | .sleep n => .next (sleepOp n s)
  | .initAttempt n => .next (initAttemptOp n s)
  | .awaitInit _ => .next s
  | .awaitTx => .next s
  | .awaitRx => .next s
  | .awaitCancel => .next s
  | .exchange c payload => .next (exchangeOp c payload s)
  | .awaitReply _ => .next s
  | .packetBlock payload b delay => .next (packetBlockOp payload b delay s)
  | .packetSent payload b delay => .next (packetSentOp payload b delay s)
  | .blockReceived b tInter => .next (blockReceivedOp b tInter s)
  | .step1Done => .next (step1DoneOp s)
  | .flushTProcess => .next (flushTProcessOp s)
  | .flushTSent => .next (flushTSentOp s)
  | .flushTEnd => .next (flushTEndOp s)
  | .loopTail => .next (loopTailOp s)

end Sys2Proof.Machine
end

