-- ==== Sys2Proof/Machine/Step.lean ====
section
/-! DEFINITION. One step of the machine: one atomic step of one agent (`00_scope.md` R9), chosen by the agenda or, when it is
empty, by the prompt schedule; and where a table word is put so that the next step runs it. -/

namespace Sys2Proof.Machine

/-- The parameters and the block size meet R12. -/
def configOk (s : State) : Bool := s.par.ok && blockSizeOk s.host.cfg.b

/-- Call an instruction; a call outside its operands' limits does nothing and says so (R289). -/
def execChecked (i : Instr) (s : State) : Out := if i.wf then exec i s else refuseCall i s

/-- The host's next atomic step: the head of its control list. -/
def hostStep (s : State) : Out :=
  match s.host.ctl with
  | [] => .next s
  | .call i :: k => execChecked i (setCtl k s)
  | t :: k => runTask t (setCtl k s)

/-- One turn (R9). An agent that is not enabled takes its turn without effect. -/
def runTurn (t : Turn) (s : State) : Out :=
  match t with
  | .host => hostStep s
  | .devRecv => exec .devRecv s
  | .devSend => exec .devSend s
  | .isrPkt => if irqAllowed .pkt s then exec .isrPkt s else .next s
  | .isrThr => if irqAllowed .thr s then exec .isrThr s else .next s
  | .radio => .next (radioStep s)
  | .air air rssi crclqi => .next (airPacket air rssi crclqi s)
  | .airLen a => .next (chooseAirLen a s)
  | .linkH2D k => .next (linkH2D k s)
  | .linkD2H k => .next (linkD2H k s)
  | .termPut b => .next (termPut b s)
  | .termTake k => .next (termTake k s)
  | .tick n => .next (clockTick n s)
  | .direct i => execChecked i s
  | .exchange c payload => .next (askExchange c payload s)
  | .devPowerUp => .next (powerUp s)
  | .hostStart keyup keydown => .next (hostStart keyup keydown s)

/-- Whose turn it is: the head of the agenda, taken off it, or the prompt schedule's choice. -/
def nextTurn (s : State) : Option Turn × State :=
  match s.agenda with
  | [] => (promptTurn s, s)
  | t :: ts => (some t, { s with agenda := ts })

/-- The step of the agent whose turn it is; when nobody has a step the machine stays as it is. -/
def agentStep (s : State) : Out :=
  match nextTurn s with
  | (some t, s') => runTurn t s'
  | (none, s') => .next s'

/-- A step of a machine whose configuration is good or not: "a model refuses a configuration that breaks a constraint" (R12). -/
def stepIf (good : Bool) (s : State) : Out :=
  match good with
  | true => agentStep s
  | false => .refused .badConfig

/-- One step. -/
def step (s : State) : Host.Outcome State Fault Refusal := stepIf (configOk s) s

/-- Make it the turn of `t`. -/
def withTurn (t : Turn) (s : State) : State := { s with agenda := t :: s.agenda }

/-- The last byte of a block and the bytes before it. -/
def splitLast (bs : Bytes) : Bytes × Bytes := (bs.dropLast, bs.drop (bs.length - 1))

/-- A table word stored where `step` fetches its next instruction (log entry 5). A command block: all its bytes but the last
in the device receiver, the last one available on `L_H2D`, and the turn is `DEV_RECV`'s. A reply block: whole and available on
`L_D2H`, and the host's next work is to read it. A KISS command: its frame is what the host's next work, `KISS_PROCESS`, reads.
A special byte: it is what the host's next work, `UNESCAPE`, reads. A status code: a harness calls it. -/
def State.withFetchWord (s : State) (nbits w : Nat) : State :=
  match tableBytes nbits w with
  | [] => s
  | b :: rest =>
    let bs := tableLayout (b :: rest)
    match tableSpace b with
    | .command =>
      let p := splitLast bs
      withTurn .devRecv
        { s with
          dev.trd := p.1.foldl trdPush { acc := [], expv := false, exp := 0 }
          lH2D.avail := p.2 }
    | .reply =>
      withTurn .host (pushTasks [.call (.readBlock 0)] { s with lD2H.avail := bs ++ s.lD2H.avail })
    | .kiss => withTurn .host (pushTasks [.call (.kissProcess bs)] s)
    | .special => withTurn .host (pushTasks [.call (.unescape bs)] s)
    | .status =>
      match decodeStatus b with
      | some i => withTurn (.direct i) s
      | none => s

end Sys2Proof.Machine
end

