-- ==== Sys2Proof/Safety.lean ====
section
/-! DEFINITION. What counts as a good state and a safe run, and the vocabulary the claims use: which bits of a GPIO register a
change may touch, which half an instruction belongs to, which inputs the streamer accepts, and the invariant every step keeps. -/

namespace Sys2Proof.Machine

/-! ## The GPIO registers -/

/-- The bits of `a` and `b` outside `[PKT]` and `[THR]` agree (R34: no rule writes them). -/
def otherBits (p : Params) (a b : Byte) : Prop :=
  ∀ n : Fin 8, n ≠ p.pktBit → n ≠ p.thrBit → bitAt a n = bitAt b n

/-- None of the four registers differs in a bit outside `[PKT]` and `[THR]` (R34). -/
def GpioOthers (s t : State) : Prop :=
  otherBits s.par s.dev.gpio.pin t.dev.gpio.pin ∧ otherBits s.par s.dev.gpio.ifg t.dev.gpio.ifg ∧
  otherBits s.par s.dev.gpio.ie t.dev.gpio.ie ∧ otherBits s.par s.dev.gpio.ies t.dev.gpio.ies

/-- What a read of a GPIO register that holds `v` may return (R34): bits `[PKT]` and `[THR]` as they are, the others any. -/
def ReadsAs (p : Params) (v r : Byte) : Prop := bitAt r p.pktBit = bitAt v p.pktBit ∧ bitAt r p.thrBit = bitAt v p.thrBit

/-- A register with bits `[PKT]` and `[THR]` both 0 and the other bits as they were. -/
def clearLines (p : Params) (v : Byte) : Byte := withBit (withBit v p.pktBit false) p.thrBit false

/-! ## The streamer -/

/-- The cells of R150's table that are not "ignored": the input is accepted in the mode the streamer is in (R150, R163). -/
def accepted (ev : Event) (s : State) : Bool :=
  match ev with
  | .txStart _ => decide (s.dev.str.mode = .idle)
  | .rxStart _ => decide (s.dev.str.mode = .idle)
  | .pktRise => decide (s.dev.str.mode ≠ .idle) && armedEdge .pkt false s
  | .pktFall => decide (s.dev.str.mode ≠ .idle) && armedEdge .pkt true s
  | .thrRise => decide (s.dev.str.mode = .rxStreaming) && armedEdge .thr false s
  | .thrFall => decide (s.dev.str.mode = .txStreaming) && armedEdge .thr true s
  | .cancel => true

/-- The instruction a streamer input is (R82). -/
def eventInstr : Event → Instr
  | .pktRise => .evPktRise
  | .pktFall => .evPktFall
  | .thrRise => .evThrRise
  | .thrFall => .evThrFall
  | .cancel => .evCancel
  | .txStart payload => .evTxStart payload
  | .rxStart rxlen => .evRxStart rxlen

/-- The bytes `TX_START` loads at once: `TXBUF[0:n]`, `n = min(TXLEN, FIFO_SIZE − 1)` (R151). -/
def txHead (payload : Bytes) (s : State) : Bytes := payload.take (min payload.length (s.par.fifoSize - 1))

/-- The bytes a refill writes: `TXBUF[TXPOS : TXPOS + n]`, `n = min(TX_CHUNK, TXLEN − TXPOS)` (R153). -/
def txNext (s : State) : Bytes :=
  (s.dev.str.txbuf.drop s.dev.str.txpos).take (min s.par.txChunk (s.dev.str.txlen - s.dev.str.txpos))

/-- The bytes fit the TX FIFO (R63). -/
def fitsTxFifo (b : Bytes) (s : State) : Prop := s.radio.txFifo.length + b.length ≤ s.par.fifoSize

/-- `t` is what `TX_START(payload)` makes of `s` (R151), the strobe's effect on the radio as R301 gives it. -/
def TxStarted (payload : Bytes) (s t : State) : Prop :=
  t = { s with
        dev.str :=
          { s.dev.str with
            mode := .txStreaming
            cntPktRise := 0
            cntPktFall := 0
            cntThrRise := 0
            cntThrFall := 0
            txbuf := payload
            txlen := payload.length
            txpos := min payload.length (s.par.fifoSize - 1) }
        dev.gpio := t.dev.gpio
        radio :=
          { s.radio with
            txFifo := s.radio.txFifo ++ txHead payload s
            rstate := .tx
            sent := 0
            synced := false
            airLen := s.radio.airSel.getD payload.length } } ∧
  (ieOf .pkt t = true ∧ iesOf .pkt t = false ∧ ifgOf .pkt t = false ∧ pinOf .pkt t = pinOf .pkt s) ∧
  (ifgOf .thr t = false ∧ pinOf .thr t = thrLevel t) ∧
  (if min payload.length (s.par.fifoSize - 1) < payload.length then ieOf .thr t = true ∧ iesOf .thr t = true
   else ieOf .thr t = false ∧ iesOf .thr t = iesOf .thr s) ∧
  GpioOthers s t

/-- `t` is what `RX_START(rxlen)` makes of `s` (R152), the strobe's effect on the radio as R302 gives it. -/
def RxStarted (rxlen : Byte) (s t : State) : Prop :=
  t = { s with
        dev.str :=
          { s.dev.str with
            mode := .rxStreaming
            cntPktRise := 0
            cntPktFall := 0
            cntThrRise := 0
            cntThrFall := 0
            rxbuf := []
            rxlen := rxlen }
        dev.gpio := t.dev.gpio
        radio := { s.radio with rstate := .rx, inPkt := false } } ∧
  (∀ x, ieOf x t = true ∧ iesOf x t = false ∧ ifgOf x t = false ∧ pinOf x t = pinOf x s) ∧
  GpioOthers s t

/-- `t` is what `CANCEL` makes of `s` (R159), the strobe's effect on the radio as R301 gives it: a line that was high falls after
the flags are cleared, so its flag is set again when its falling edge is the selected one. -/
def Cancelled (s t : State) : Prop :=
  t = { s with
        dev.str.mode := .idle
        dev.gpio := t.dev.gpio
        radio := { s.radio with rstate := .idle, txFifo := [], rxFifo := [], txUnf := false, rxOvf := false } } ∧
  (∀ x, ieOf x t = false ∧ iesOf x t = iesOf x s ∧ pinOf x t = false ∧ ifgOf x t = (pinOf x s && iesOf x s)) ∧
  GpioOthers s t

/-- The status-shape block `COMPOSE_STATUS` appends in state `s` (R73, R161), for any bytes `r` that the four registers may read
as (R34). -/
def statusBlock (ty : BlockType) (st : Byte) (s : State) (r : Byte × Byte × Byte × Byte) : Bytes :=
  [typeCode ty, 9, st, s.dev.str.cntPktRise, s.dev.str.cntPktFall, s.dev.str.cntThrRise, s.dev.str.cntThrFall,
   r.1, r.2.1, r.2.2.1, r.2.2.2]

/-- The four bytes are reads of `PIN`, `IFG`, `IE`, `IES` in state `s` (R34, R161). -/
def RegistersRead (s : State) (r : Byte × Byte × Byte × Byte) : Prop :=
  ReadsAs s.par s.dev.gpio.pin r.1 ∧ ReadsAs s.par s.dev.gpio.ifg r.2.1 ∧
  ReadsAs s.par s.dev.gpio.ie r.2.2.1 ∧ ReadsAs s.par s.dev.gpio.ies r.2.2.2

/-! ## The host -/

/-- A call on the host's control list is of a host operation with operands in range. -/
def Task.ok : Task → Bool
  | .call i => hostOp i && i.wf
  | _ => true

/-- The head of the control list is one of the commands that wait for an answer. -/
def awaiting : List Task → Bool
  | .awaitInit _ :: _ => true
  | .awaitTx :: _ => true
  | .awaitRx :: _ => true
  | .awaitCancel :: _ => true
  | .awaitReply _ :: _ => true
  | _ => false

/-- The instruction a turn calls, if it calls one (the handlers apart). -/
def turnCall (τ : Turn) (s : State) : Option Instr :=
  match τ, s.host.ctl with
  | .devRecv, _ => some .devRecv
  | .devSend, _ => some .devSend
  | .direct i, _ => some i
  | .host, .call i :: _ => some i
  | _, _ => none

/-- The reader with which a turn polls `L_D2H`, if it polls: a fresh one for `READ_BLOCK`, the reader in progress for a later poll
(R101). -/
def turnReader (τ : Turn) (s : State) : Option Trh :=
  match turnCall τ s, τ, s.host.ctl with
  | some (.readBlock t), _, _ => some { s.host.trh with acc := [], expv := false, budget := t }
  | none, .host, .poll :: _ => some s.host.trh
  | _, _, _ => none

/-- The available bytes of `L_H2D` that a turn leaves: `DEV_RECV` takes one (R103), no other step takes any. -/
def leftH2D (τ : Turn) (s : State) : Bytes :=
  if turnCall τ s = some .devRecv then s.lH2D.avail.drop 1 else s.lH2D.avail

/-- The available bytes of `L_D2H` that a turn leaves: a poll takes what `pollBytes` takes (R101), no other step takes any. -/
def leftD2H (τ : Turn) (s : State) : Bytes :=
  match turnReader τ s with
  | some t => (pollBytes t s.lD2H.avail).2
  | none => s.lD2H.avail

/-- The bytes a turn puts on `L_D2H`: `DEV_SEND` puts the block at the head of `OUTQ` (R112), no other step puts any. -/
def putsD2H (τ : Turn) (s : State) : Bytes :=
  if turnCall τ s = some .devSend then s.dev.outq.headD [] else []

/-- Whether a turn is a start of one of the halves (R330): "the channels are empty at start" (R39). -/
def startTurn : Turn → Bool
  | .devPowerUp => true
  | .hostStart _ _ => true
  | _ => false

/-- The loop of `RECEIVE_PACKET` given blocks that all arrive good (R133): each `(cd, data)` pair is the answer of one
`RECEIVE_BLOCK`. `k` is what the host has to do after the packet. -/
def feedBlocks (b tInter : Nat) (k : List Task) (blocks : List (Byte × Bytes)) (s : State) : State :=
  blocks.foldl (fun s q => blockReceivedOp b tInter { s with host.res := .received q.1 q.2, host.ctl := k }) s

/-- The tokens `TOKENIZE` takes from a buffer, one after another, at most `fuel` of them (R202). -/
def tokensUpTo : Nat → Bytes → List Bytes
  | 0, _ => []
  | fuel + 1, buf =>
    match tokenize buf with
    | none => []
    | some (frame, rest) => frame :: tokensUpTo fuel rest

/-- All the tokens of a buffer, after the resynchronisation of R202. Each token leaves a shorter rest, so the length is fuel
enough. -/
def tokensOf (buf : Bytes) : List Bytes := tokensUpTo buf.length (buf.dropWhile (· != FEND))

/-- A frame that carries data (R194, R195). -/
def isDataFrame (frame : Bytes) : Bool :=
  match interpretCommand frame with
  | .data _ _ => true
  | _ => false

/-- What a frame does to the TNC registers (R196 to R199): commands 1 to 4 with a value write one each. -/
def tncAfter (p : Params) (frame : Bytes) (c : Tnc) : Tnc :=
  match interpretCommand frame with
  | .config 1 _ (some v) => { c with keyup := v.toNat * p.kissUnit }
  | .config 2 _ (some v) => { c with persist := v }
  | .config 3 _ (some v) => { c with slottime := v }
  | .config 4 _ (some v) => { c with keydown := v.toNat * p.kissUnit }
  | _ => c

/-- A frame that carries the abort-process command (R200). -/
def isAbortFrame (frame : Bytes) : Bool :=
  match interpretCommand frame with
  | .config 15 _ _ => true
  | _ => false

/-! ## The invariant -/

/-- A composed block: its second byte counts the bytes after it (R70), and it is whole. -/
def wholeBlock (b : Bytes) : Prop := ∃ code payload, payload.length ≤ 255 ∧ b = blockBytes code payload

/-- The good states. Each field says where its clause comes from; every step keeps them all, whatever the agenda chooses. -/
structure Inv (s : State) : Prop where
  /-- The receiver holds at most one byte until the size is latched (R103). -/
  trdHead : s.dev.trd.expv = false → s.dev.trd.acc.length ≤ 1
  /-- A latched size is the block's second byte, and the block is still incomplete (R103). -/
  trdBody : s.dev.trd.expv = true →
    2 ≤ s.dev.trd.acc.length ∧ s.dev.trd.acc.getD 1 0 = s.dev.trd.exp ∧ s.dev.trd.acc.length < s.dev.trd.exp.toNat + 2
  /-- `TRH.ACC` never holds more than one block: 257 bytes (R26, R62). -/
  trhBound : if s.host.trh.expv = true then s.host.trh.acc.length ≤ s.host.trh.exp.toNat + 2
    else s.host.trh.acc.length ≤ 1
  /-- Every composed block is whole (R28, R104). -/
  outqWhole : ∀ b ∈ s.dev.outq, wholeBlock b
  /-- `TXLEN` is the length of `TXBUF`, at most 255 (R32). -/
  txLen : s.dev.str.txlen = s.dev.str.txbuf.length ∧ s.dev.str.txlen ≤ 255
  /-- `TXPOS ≤ TXLEN` (R32). -/
  txPos : s.dev.str.txpos ≤ s.dev.str.txlen
  /-- `len RXBUF ≤ RXCAP` (R33). -/
  rxBound : s.dev.str.rxbuf.length ≤ rxCap s.dev.str.rxlen
  /-- The FIFOs hold at most `FIFO_SIZE` bytes (R37). -/
  fifoBound : s.radio.txFifo.length ≤ s.par.fifoSize ∧ s.radio.rxFifo.length ≤ s.par.fifoSize
  /-- The TX FIFO is empty on entry to a transmission (R151): it holds bytes only during one. -/
  txFifoIdle : s.dev.str.mode ≠ .txStreaming → s.radio.txFifo = []
  /-- A pending refill finds the TX FIFO below its threshold (R291, R292). -/
  refillRoom : s.dev.str.mode = .txStreaming → iesOf .thr s = true → ifgOf .thr s = true →
    s.radio.txFifo.length < s.par.txThr
  /-- The threshold line has the level R301 gives it. -/
  thrPin : pinOf .thr s = thrLevel s
  /-- "`IDLE` always has both lines disabled" (R166). -/
  idleLines : s.dev.str.mode = .idle → ieOf .pkt s = false ∧ ieOf .thr s = false
  /-- Between steps interrupts are enabled: every bracket and every handler sets `GIE` again (R35, R295). -/
  gieOn : s.dev.gie = true
  /-- The scheduler's buffers keep within their capacities (R62). -/
  bufBound : s.host.sch.rbuf.length ≤ s.par.rbufCap ∧ s.host.sch.tbuf.length ≤ s.par.tbufCap
  /-- `TRI` and the triggers imply bytes in their buffer (R236). -/
  triBytes : (s.host.sch.tri = .txActive → s.host.sch.tbuf ≠ []) ∧ (s.host.sch.txtrig = true → s.host.sch.tbuf ≠ []) ∧
    (s.host.sch.tri = .rxActive → s.host.sch.rbuf ≠ []) ∧ (s.host.sch.rxtrig = true → s.host.sch.rbuf ≠ [])
  /-- The host's pending calls are of host operations (R20). -/
  ctlOk : ∀ t ∈ s.host.ctl, Task.ok t = true

/-- The next turn is a harness's direct call (R150). -/
def directNext (s : State) : Bool :=
  match s.agenda with
  | .direct _ :: _ => true
  | _ => false

end Sys2Proof.Machine
end

