-- ==== Sys2Proof/Certificates/Slice0/Obligations.lean ====
section
/-! DEFINITION. The statements for the provers. Each cites the rule of `spec/` it formalises; where a clause is the model's own
choice the docstring says so and names the log entry. -/

open Sys2Proof Sys2Proof.Machine

/-! ## Encodings -/

/-- Decode and encode agree: the bytes written for a well-formed instruction of any of the five encoding spaces (R70, R71, R78
to R81, R86), whatever follows them, decode to that instruction; a KISS frame leaves its closing delimiter (R190). -/
def Obligations.DecodeOfEncode : Prop :=
  ∀ (i : Instr) (sp : Space) (more : Bytes), i.wf = true → i.space = some sp →
    decode sp (encode i ++ more) = .ok (i, if sp = .kiss then FEND :: more else more)

/-- No two byte sequences are the same block, special byte or status code: what decodes is well formed, belongs to its space, and
encodes back to the bytes that were read. (KISS frames are left out: R190 skips delimiters and R203 repairs escapes.) -/
def Obligations.EncodeOfDecode : Prop :=
  ∀ (sp : Space) (bs rest : Bytes) (i : Instr), sp ≠ .kiss → decode sp bs = .ok (i, rest) →
    i.wf = true ∧ i.space = some sp ∧ encode i ++ rest = bs

/-- A few words written out from the encoding tables (R70 to R73, R78 to R81, R86) decode to the instructions they stand for. -/
def Obligations.WrittenWordsDecode : Prop :=
  decode .command [0x03, 0x01, 0x40, 0x05] = .ok (.rx [0x40], [0x05]) ∧
  decode .command [0x07, 0x00] = .ok (.blockReserved .h2d 0x07 [], []) ∧
  decode .reply [0x07, 0x02, 0x01, 0x01] = .ok (.txKo [0x01, 0x01], []) ∧
  decode .kiss [0xC0, 0x21, 0x19, 0xC0] = .ok (.kissTxdelay 2 (some 0x19), [0xC0]) ∧
  decode .special [0xDB] = .ok (.fesc, []) ∧
  decode .status [0x03] = .ok (.stRxOverflow, [])

/-! ## The codec -/

/-- `TOKENIZE` whole (R190): the leading run of delimiters collapses to one, the frame runs to the next delimiter, the rest starts
with it; every other buffer gives no token. -/
def Obligations.TokenizeFindsFirstFrame : Prop :=
  (∀ (buf : Bytes) (s : State), exec (.tokenize buf) s = .next { s with host.res := .token (tokenize buf) }) ∧
  (∀ (n : Nat) (body tl : Bytes), body ≠ [] → FEND ∉ body →
    tokenize (List.replicate (n + 1) FEND ++ body ++ FEND :: tl) = some (FEND :: (body ++ [FEND]), FEND :: tl)) ∧
  (∀ (buf frame rest : Bytes), tokenize buf = some (frame, rest) →
    ∃ n body tl, body ≠ [] ∧ FEND ∉ body ∧ buf = List.replicate (n + 1) FEND ++ body ++ FEND :: tl)

/-- The laws (a) to (e) of R193, and `ESCAPE` as an operation. A frame is well formed when it is delimited, its body has no delimiter
and every escape in its body is followed by TFEND or TFESC (R79). -/
def Obligations.CodecLaws : Prop :=
  (∀ (p : Bytes) (s : State), exec (.escape p) s = .next { s with host.res := .bytes (escape p) }) ∧
  (∀ p : Bytes, unescape (escape p) = p) ∧
  (∀ f : Bytes, (unescape f).length ≤ f.length) ∧
  (∀ p : Bytes, (escape p).length = 2 + p.length + p.countP (fun b => b == 0xC0 || b == 0xDB)) ∧
  (∀ p : Bytes, ∃ body, escape p = 0xC0 :: (body ++ [0xC0]) ∧ (0xC0 : Byte) ∉ body) ∧
  (∀ body : Bytes, (0xC0 : Byte) ∉ body →
    (∀ i : Nat, body[i]? = some 0xDB → body[i + 1]? = some 0xDC ∨ body[i + 1]? = some 0xDD) →
    escape (unescape (0xC0 :: (body ++ [0xC0]))) = 0xC0 :: (body ++ [0xC0])) ∧
  (∃ f : Bytes, escape (unescape f) ≠ f)

/-- `UNESCAPE` as an operation (R191, R203), and the four special bytes as its reader runs them (R78). Reading the frame byte by byte
gives the byte sequence the loop of R191 gives. A delimiter is stripped; an escape opens a pair; after an escape TFEND gives 0xC0,
TFESC gives 0xDB and a second escape gives itself; elsewhere TFEND and TFESC are ordinary. That a frame is read byte by byte, each
special byte an instruction of the reader, is the model's choice (log entry 12). -/
def Obligations.UnescapeReadsByteByByte : Prop :=
  (∀ (f : Bytes) (s : State), ∃ e, exec (.unescape f) s = .next { s with
    host.kiss.out := unescape f
    host.kiss.esc := e
    host.res := .bytes (unescape f) }) ∧
  ∀ s : State,
    exec .fend s = .next s ∧
    (s.host.kiss.esc = false →
      exec .fesc s = .next { s with host.kiss.esc := true } ∧
      exec .tfend s = .next { s with host.kiss.out := s.host.kiss.out ++ [0xDC] } ∧
      exec .tfesc s = .next { s with host.kiss.out := s.host.kiss.out ++ [0xDD] }) ∧
    (s.host.kiss.esc = true →
      exec .fesc s = .next { s with host.kiss.out := s.host.kiss.out ++ [0xDB], host.kiss.esc := false } ∧
      exec .tfend s = .next { s with host.kiss.out := s.host.kiss.out ++ [0xC0], host.kiss.esc := false } ∧
      exec .tfesc s = .next { s with host.kiss.out := s.host.kiss.out ++ [0xDB], host.kiss.esc := false })

/-- `INTERPRET_COMMAND` whole (R194): low nibble the command, high nibble the port; 0 is data; the value is the byte after; an
empty content is `Empty` (R204). -/
def Obligations.InterpretCommandReadsNibbles : Prop :=
  ∀ (f : Bytes) (s : State),
    exec (.interpretCommand f) s = .next { s with host.res := .command (interpretCommand f) } ∧
    (unescape f = [] → interpretCommand f = .empty) ∧
    (∀ b u, unescape f = b :: u → b.toNat % 16 = 0 → interpretCommand f = .data (BitVec.ofNat 4 (b.toNat / 16)) u) ∧
    (∀ b u, unescape f = b :: u → b.toNat % 16 ≠ 0 →
      interpretCommand f = .config (BitVec.ofNat 4 b.toNat) (BitVec.ofNat 4 (b.toNat / 16)) u[0]?)

/-- The KISS commands, every port accepted. Commands 1 to 4 (R196 to R199): a value byte sets the register, in ticks for the two
delays; without one nothing is written. `KISS_ABORT` sets `HALT` (R200); codes 5 to 14 write nothing (R201). -/
def Obligations.KissCommandsWriteTheirRegister : Prop :=
  ∀ (port cmd : Nibble) (v : Byte) (o : Option Byte) (s : State),
    exec (.kissTxdelay port (some v)) s = .next { s with host.tnc.keyup := v.toNat * s.par.kissUnit } ∧
    exec (.kissPersist port (some v)) s = .next { s with host.tnc.persist := v } ∧
    exec (.kissSlottime port (some v)) s = .next { s with host.tnc.slottime := v } ∧
    exec (.kissTxtail port (some v)) s = .next { s with host.tnc.keydown := v.toNat * s.par.kissUnit } ∧
    exec (.kissTxdelay port none) s = .next s ∧ exec (.kissPersist port none) s = .next s ∧
    exec (.kissSlottime port none) s = .next s ∧ exec (.kissTxtail port none) s = .next s ∧
    exec (.kissAbort port o) s = .next { s with host.sch.halt := true } ∧
    exec (.kissUnlisted port cmd o) s = .next s

/-- `KISS_DATA` (R195): the frame at hand is kept for transmission as it stands, and nothing else changes. That it appends
`Kiss.frame` to `Kiss.rem` is the model's choice, how it holds the locals of R202 (log entry 13). -/
def Obligations.KissDataKeepsTheFrame : Prop :=
  ∀ (port : Nibble) (d : Bytes) (s : State),
    exec (.kissData port d) s = .next { s with host.kiss.rem := s.host.kiss.rem ++ s.host.kiss.frame }

/-- `KISS_PROCESS` whole (R202): the remainder is the data frames in order, each with both its delimiters; the configuration
frames write the TNC registers and `HALT` in order; a buffer that does not start with the delimiter is logged; the tokens are
those `TOKENIZE` gives one after another. -/
def Obligations.KissProcessRunsEveryFrame : Prop :=
  (∀ (buf : Bytes) (s : State), ∃ k : Kiss,
    k.rem = ((tokensOf buf).filter isDataFrame).flatten ∧
    exec (.kissProcess buf) s = .next { s with
      host.kiss := k
      host.tnc := (tokensOf buf).foldl (fun c f => tncAfter s.par f c) s.host.tnc
      host.sch.halt := s.host.sch.halt || (tokensOf buf).any isAbortFrame
      host.res := .bytes k.rem
      log := s.log ++ if buf ≠ [] ∧ buf.head? ≠ some FEND then [.kissNosync] else [] }) ∧
  (∀ buf frame rest : Bytes, tokenize buf = some (frame, rest) → tokensOf buf = frame :: tokensOf rest) ∧
  (∀ buf : Bytes, buf.head? = some FEND → tokenize buf = none → tokensOf buf = [])

/-! ## The device's command blocks -/

/-- `DEV_DISPATCH`: the type byte alone selects the command, and `Respond` appends a whole block to `OUTQ` (R104). A block the
device cannot accept changes nothing (R111): a reserved or KO type, INIT with a wrong size or outside `IDLE`, TX or RX with a size
that does not fit, before INIT or outside `IDLE`. -/
def Obligations.DispatchByTypeOrIgnore : Prop :=
  (∀ (code : Byte) (p : Bytes) (s : State),
    exec (.devDispatch code p) s =
      exec (if code = 0x01 then .init p else if code = 0x02 then .tx p else if code = 0x03 then .rx p
        else if code = 0x04 then .rxCancel p else if code = 0x05 then .radioStatus p else if code = 0x06 then .echoTest p
        else .blockReserved .h2d code p) s) ∧
  (∀ (ty : BlockType) (p : Bytes) (s : State), p.length ≤ 255 →
    ∃ size : Byte, size.toNat = p.length ∧
      respond ty p s = { s with dev.outq := s.dev.outq ++ [typeCode ty :: size :: p] }) ∧
  ∀ (p : Bytes) (s : State),
    (∀ code : Byte, code = 0x00 ∨ 7 ≤ code.toNat →
      exec (.blockReserved .h2d code p) s = .next s ∧ exec (.devDispatch code p) s = .next s) ∧
    (p.length ≠ s.par.parmsLen ∨ s.dev.str.mode ≠ .idle →
      exec (.init p) s = .next s ∧ exec (.devDispatch 0x01 p) s = .next s) ∧
    (p = [] ∨ s.dev.inited = false ∨ s.dev.str.mode ≠ .idle →
      exec (.tx p) s = .next s ∧ exec (.devDispatch 0x02 p) s = .next s) ∧
    (p.length ≠ 1 ∨ s.dev.inited = false ∨ s.dev.str.mode ≠ .idle →
      exec (.rx p) s = .next s ∧ exec (.devDispatch 0x03 p) s = .next s)

/-- INIT whole (R105): accepted with a payload of `PARMS_LEN` bytes in `IDLE`, ignored otherwise. -/
def Obligations.InitCommandKeepsTheRecord : Prop :=
  ∀ (p : Bytes) (s : State) (i : Instr), i = .init p ∨ i = .devDispatch 0x01 p →
    (p.length = s.par.parmsLen → s.dev.str.mode = .idle →
      exec i s = .next { s with
        dev.parms := p
        dev.inited := true
        dev.outq := s.dev.outq ++ [[0x01, 0x00]]
        radio.config := p }) ∧
    (p.length ≠ s.par.parmsLen ∨ s.dev.str.mode ≠ .idle → exec i s = .next s)

/-- ECHO_TEST and RADIO_STATUS whole (R109, R110), in every mode: the reply is queued and nothing else of the block changes. The
snapshot is any `STATUS_LEN` bytes (log entry 4). -/
def Obligations.EchoAndStatusAnswer : Prop :=
  ∀ (p : Bytes) (s : State), p.length ≤ 255 → s.par.statusLen ≤ 255 →
    (∃ size : Byte, size.toNat = p.length ∧ ∀ i : Instr, i = .echoTest p ∨ i = .devDispatch 0x06 p →
      exec i s = .next { s with dev.outq := s.dev.outq ++ [0x06 :: size :: p] }) ∧
    (∃ (size : Byte) (snap : Bytes), size.toNat = s.par.statusLen ∧ snap.length = s.par.statusLen ∧
      ∀ i : Instr, i = .radioStatus p ∨ i = .devDispatch 0x05 p →
        exec i s = .next { s with dev.outq := s.dev.outq ++ [0x05 :: size :: snap], freeCtr := s.freeCtr + 1 })

/-! ## The streamer -/

/-- `TX_START` whole (R151), as an event, through `STR_STEP` and as the TX command of an initialised device (R106). First bytes
that do not fit the FIFO, which R151 takes to be empty, are the fault R63 asks for. -/
def Obligations.TxStartLoadsAndArms : Prop :=
  ∀ (p : Bytes) (s : State) (i : Instr), s.par.pktBit ≠ s.par.thrBit → s.dev.str.mode = .idle →
    i = .evTxStart p ∨ i = .strStep (.txStart p) ∨
      ((i = .tx p ∨ i = .devDispatch 0x02 p) ∧ p ≠ [] ∧ s.dev.inited = true) →
    (fitsTxFifo (txHead p s) s → ∃ t, exec i s = .next t ∧ TxStarted p s t) ∧
    (¬fitsTxFifo (txHead p s) s → exec i s = .fault .fifoOverfill)

/-- `RX_START` whole (R152), as an event, through `STR_STEP` and as the RX command of an initialised device (R107). -/
def Obligations.RxStartArmsBothLines : Prop :=
  ∀ (b : Byte) (s : State) (i : Instr), s.par.pktBit ≠ s.par.thrBit → s.dev.str.mode = .idle →
    i = .evRxStart b ∨ i = .strStep (.rxStart b) ∨ ((i = .rx [b] ∨ i = .devDispatch 0x03 [b]) ∧ s.dev.inited = true) →
    ∃ t, exec i s = .next t ∧ RxStarted b s t

/-- Sync word sent or received (R154, R157): the counter, the edge select and the flag, nothing else. -/
def Obligations.PktRiseWaitsForTheFall : Prop :=
  ∀ (s : State) (i : Instr), i = .evPktRise ∨ i = .strStep .pktRise →
    s.dev.str.mode ≠ .idle → ieOf .pkt s = true → iesOf .pkt s = false →
    exec i s = .next { s with
      dev.str.cntPktRise := s.dev.str.cntPktRise + 1
      dev.gpio.ies := withBit s.dev.gpio.ies s.par.pktBit true
      dev.gpio.ifg := withBit s.dev.gpio.ifg s.par.pktBit false }

/-- Refill whole (R153): the chunk is written and `TXPOS` moved; the line is disabled once nothing remains; the line's level
follows the FIFO (R301). A chunk that does not fit is the fault R63 asks for. -/
def Obligations.ThrFallRefills : Prop :=
  ∀ (s : State) (i : Instr), s.par.pktBit ≠ s.par.thrBit → i = .evThrFall ∨ i = .strStep .thrFall →
    s.dev.str.mode = .txStreaming → ieOf .thr s = true → iesOf .thr s = true →
    (fitsTxFifo (txNext s) s →
      ∃ t, exec i s = .next t ∧
        t = { s with
          dev.str.cntThrFall := s.dev.str.cntThrFall + 1
          dev.str.txpos := s.dev.str.txpos + min s.par.txChunk (s.dev.str.txlen - s.dev.str.txpos)
          dev.gpio.pin := t.dev.gpio.pin
          dev.gpio.ifg := withBit s.dev.gpio.ifg s.par.thrBit false
          dev.gpio.ie := if t.dev.str.txpos = t.dev.str.txlen then withBit s.dev.gpio.ie s.par.thrBit false
            else s.dev.gpio.ie
          radio.txFifo := s.radio.txFifo ++ txNext s } ∧
        pinOf .thr t = thrLevel t ∧ pinOf .pkt t = pinOf .pkt s ∧ GpioOthers s t) ∧
    (¬fitsTxFifo (txNext s) s → exec i s = .fault .fifoOverfill)

/-- End of a transmission whole (R155, the status of R86): underflow before not-empty before no error; on an error the TX FIFO
and `TXUNF` are cleared first (R63) and the threshold line follows (R301); the block shows the counters after the increment and the registers before the lines are stopped. -/
def Obligations.PktFallEndsTransmission : Prop :=
  ∀ (s : State) (i : Instr), i = .evPktFall ∨ i = .strStep .pktFall →
    s.dev.str.mode = .txStreaming → ieOf .pkt s = true → iesOf .pkt s = true →
    ∀ (st : Byte) (ty : BlockType) (u : State),
      st = (if s.radio.txUnf then 0x01 else if s.radio.txFifo ≠ [] then 0x02 else 0x00) →
      ty = (if st = 0x00 then .tx else .txKo) →
      u = (let c := { s with dev.str.cntPktFall := s.dev.str.cntPktFall + 1 }
        let v := { c with radio.txFifo := [], radio.txUnf := false }
        if st = 0x00 then c else setLine .thr (thrLevel v) v) →
      ∃ r, RegistersRead u r ∧
        exec i s = .next { u with
          dev.str.mode := .idle
          dev.outq := s.dev.outq ++ [statusBlock ty st u r]
          dev.gpio.ie := clearLines s.par u.dev.gpio.ie
          dev.gpio.ifg := clearLines s.par u.dev.gpio.ifg
          freeCtr := s.freeCtr + 4 }

/-- Drain whole (R156): a chunk, what there is, or what still fits, whichever is least; the line's level follows the FIFO
(R301). It never faults. -/
def Obligations.ThrRiseDrains : Prop :=
  ∀ (s : State) (i : Instr), s.par.pktBit ≠ s.par.thrBit → i = .evThrRise ∨ i = .strStep .thrRise →
    s.dev.str.mode = .rxStreaming → ieOf .thr s = true → iesOf .thr s = false →
    ∀ n, n = min s.par.rxChunk (min s.radio.rxFifo.length (min (s.dev.str.rxlen.toNat + 2) 255 - s.dev.str.rxbuf.length)) →
      ∃ t, exec i s = .next t ∧
        t = { s with
          dev.str.cntThrRise := s.dev.str.cntThrRise + 1
          dev.str.rxbuf := s.dev.str.rxbuf ++ s.radio.rxFifo.take n
          dev.gpio.pin := t.dev.gpio.pin
          dev.gpio.ifg := withBit s.dev.gpio.ifg s.par.thrBit false
          radio.rxFifo := s.radio.rxFifo.drop n } ∧
        pinOf .thr t = thrLevel t ∧ pinOf .pkt t = pinOf .pkt s ∧ GpioOthers s t

/-- End of a reception whole (R158). On an overflow: the RX FIFO and `RXOVF` are cleared (R63), the threshold
line follows (R301), and an RX_KO carries status 0x03. Else the bytes up to `RXCAP` are drained,
the rest flushed, and an RX ack carries them. It never faults. -/
def Obligations.PktFallEndsReception : Prop :=
  ∀ (s : State) (i : Instr), s.par.pktBit ≠ s.par.thrBit → i = .evPktFall ∨ i = .strStep .pktFall →
    s.dev.str.mode = .rxStreaming → ieOf .pkt s = true → iesOf .pkt s = true →
    (s.radio.rxOvf = true →
      ∀ u v, v = { s with
          dev.str.cntPktFall := s.dev.str.cntPktFall + 1
          radio.rxFifo := []
          radio.rxOvf := false } → u = setLine .thr (thrLevel v) v →
        ∃ r, RegistersRead u r ∧
          exec i s = .next { u with
            dev.str.mode := .idle
            dev.outq := s.dev.outq ++ [statusBlock .rxKo 0x03 u r]
            dev.gpio.ie := clearLines s.par u.dev.gpio.ie
            dev.gpio.ifg := clearLines s.par u.dev.gpio.ifg
            freeCtr := s.freeCtr + 4 }) ∧
    (s.radio.rxOvf = false →
      ∀ n, n = min s.radio.rxFifo.length (min (s.dev.str.rxlen.toNat + 2) 255 - s.dev.str.rxbuf.length) →
        ∃ t, exec i s = .next t ∧
          t = { s with
            dev.str.cntPktFall := s.dev.str.cntPktFall + 1
            dev.str.rxbuf := s.dev.str.rxbuf ++ s.radio.rxFifo.take n
            dev.str.mode := .idle
            dev.outq := s.dev.outq ++ [blockBytes 0x03 (s.dev.str.rxbuf ++ s.radio.rxFifo.take n)]
            dev.gpio.pin := t.dev.gpio.pin
            dev.gpio.ie := clearLines s.par s.dev.gpio.ie
            dev.gpio.ifg := clearLines s.par s.dev.gpio.ifg
            radio.rxFifo := [] } ∧
          pinOf .thr t = thrLevel t ∧ pinOf .pkt t = pinOf .pkt s ∧ GpioOthers s t)

/-- `CANCEL` whole (R159), in any mode, and RX_CANCEL, which echoes (R108) whatever payload it carries. -/
def Obligations.CancelAbandonsTheOperation : Prop :=
  ∀ s : State, s.par.pktBit ≠ s.par.thrBit →
    ∃ t, Cancelled s t ∧ exec .evCancel s = .next t ∧ exec (.strStep .cancel) s = .next t ∧
      ∀ p : Bytes, exec (.rxCancel p) s = .next { t with dev.outq := s.dev.outq ++ [[0x04, 0x00]] } ∧
        exec (.devDispatch 0x04 p) s = .next { t with dev.outq := s.dev.outq ++ [[0x04, 0x00]] }

/-- An input that is not accepted changes nothing (R160; the cells "ignored" of R150's table), and every event instruction is
`STR_STEP` on that event (R82). -/
def Obligations.IgnoredInputsChangeNothing : Prop :=
  ∀ (ev : Event) (s : State),
    (accepted ev s = false → exec (.strStep ev) s = .next s) ∧ exec (eventInstr ev) s = exec (.strStep ev) s

/-- Each counter counts the accepted events of its own kind since the last setup, modulo 256 (R164). -/
def Obligations.CountersCountAcceptedEdges : Prop :=
  ∀ (ev : Event) (s t : State), exec (.strStep ev) s = .next t →
    ((∃ p, ev = .txStart p) ∨ (∃ b, ev = .rxStart b)) ∧ accepted ev s = true ∧
        t.dev.str.cntPktRise = 0 ∧ t.dev.str.cntPktFall = 0 ∧ t.dev.str.cntThrRise = 0 ∧ t.dev.str.cntThrFall = 0 ∨
    ¬((∃ p, ev = .txStart p) ∧ accepted ev s = true) ∧ ¬((∃ b, ev = .rxStart b) ∧ accepted ev s = true) ∧
      t.dev.str.cntPktRise.toNat = (s.dev.str.cntPktRise.toNat + if ev = .pktRise ∧ accepted ev s = true then 1 else 0) % 256 ∧
      t.dev.str.cntPktFall.toNat = (s.dev.str.cntPktFall.toNat + if ev = .pktFall ∧ accepted ev s = true then 1 else 0) % 256 ∧
      t.dev.str.cntThrRise.toNat = (s.dev.str.cntThrRise.toNat + if ev = .thrRise ∧ accepted ev s = true then 1 else 0) % 256 ∧
      t.dev.str.cntThrFall.toNat = (s.dev.str.cntThrFall.toNat + if ev = .thrFall ∧ accepted ev s = true then 1 else 0) % 256

/-- `STOP_LINES`, `COMPOSE_DATA` and `COMPOSE_STATUS` whole (R166, R162, R161), with the register bytes as R34 lets them read. -/
def Obligations.StopAndCompose : Prop :=
  ∀ (s : State) (ty : BlockType) (st : Byte) (b : Bytes),
    exec .stopLines s = .next { s with
      dev.gpio.ie := clearLines s.par s.dev.gpio.ie
      dev.gpio.ifg := clearLines s.par s.dev.gpio.ifg } ∧
    (b.length ≤ 255 → ∃ size : Byte, size.toNat = b.length ∧
      exec (.composeData ty b) s = .next { s with dev.outq := s.dev.outq ++ [typeCode ty :: size :: b] }) ∧
    (∃ r, RegistersRead s r ∧ exec (.composeStatus ty st) s = .next { s with
      dev.outq := s.dev.outq ++ [statusBlock ty st s r]
      freeCtr := s.freeCtr + 4 })

/-- The status codes as the arms of the end-of-packet handlers that report them (R155, R158, R284): no error is acked; an error
flushes its FIFO and is a KO. That a status code is run as an instruction of its own is the model's choice (log entry 11). -/
def Obligations.StatusCodesReport : Prop :=
  ∀ s : State,
    (∃ r, RegistersRead s r ∧ exec .stOk s = .next { s with
      dev.outq := s.dev.outq ++ [statusBlock .tx 0x00 s r]
      freeCtr := s.freeCtr + 4 }) ∧
    (∀ u v, v = { s with radio.txFifo := [], radio.txUnf := false } → u = setLine .thr (thrLevel v) v →
      (∃ r, RegistersRead u r ∧ exec .stTxUnderflow s = .next { u with
        dev.outq := s.dev.outq ++ [statusBlock .txKo 0x01 u r]
        freeCtr := s.freeCtr + 4 }) ∧
      (∃ r, RegistersRead u r ∧ exec .stTxNotEmpty s = .next { u with
        dev.outq := s.dev.outq ++ [statusBlock .txKo 0x02 u r]
        freeCtr := s.freeCtr + 4 })) ∧
    (∀ u v, v = { s with radio.rxFifo := [], radio.rxOvf := false } → u = setLine .thr (thrLevel v) v →
      ∃ r, RegistersRead u r ∧ exec .stRxOverflow s = .next { u with
        dev.outq := s.dev.outq ++ [statusBlock .rxKo 0x03 u r]
        freeCtr := s.freeCtr + 4 })

/-! ## Interrupts -/

/-- A change of a line's level (R292): `PIN[X]` follows; the flag is set on the selected edge, whatever `IE[X]` holds, and a flag
that is set stays set; the other line and the rest of the state do not change. And the level of the threshold line, which follows
the FIFOs (R301): high exactly while either is at or above its threshold. -/
def Obligations.SelectedEdgeSetsTheFlag : Prop :=
  (∀ s : State, (thrLevel s = true ↔ s.par.txThr ≤ s.radio.txFifo.length ∨ s.par.rxThr ≤ s.radio.rxFifo.length) ∧
    updateThr s = setLine .thr (thrLevel s) s) ∧
  ∀ (x : Line) (level : Bool) (s : State), s.par.pktBit ≠ s.par.thrBit →
    ∀ t, t = setLine x level s →
      t = { s with dev.gpio.pin := t.dev.gpio.pin, dev.gpio.ifg := t.dev.gpio.ifg } ∧
      pinOf x t = level ∧
      ifgOf x t = (ifgOf x s || (pinOf x s != level && iesOf x s == !level)) ∧
      (∀ y, y ≠ x → pinOf y t = pinOf y s ∧ ifgOf y t = ifgOf y s) ∧ GpioOthers s t

/-- The two handlers whole (R294, R295). When enabled a handler runs `STR_STEP` on the edge `IES` names with `GIE` = 0, then clears the
flag and sets `GIE`; when not enabled nothing happens. `ISR_PKT` never faults; `ISR_THR` does when a refill would overfill the FIFO
(R63), and only then. And `IRQ_ORDER` (R293): with `PKT_FIRST` or `THR_FIRST` the other line's handler does not start while the first
one's is enabled; with `ANY` either may. -/
def Obligations.HandlersRunTheSelectedEdge : Prop :=
  ∀ s : State,
    (isrEnabled .pkt s = true → ∃ u,
      exec (.strStep (if iesOf .pkt s then .pktFall else .pktRise)) { s with dev.gie := false } = .next u ∧
      exec .isrPkt s = .next { u with
        dev.gpio.ifg := withBit u.dev.gpio.ifg s.par.pktBit false
        dev.gie := true }) ∧
    (isrEnabled .pkt s = false → exec .isrPkt s = .next s) ∧
    (isrEnabled .thr s = true → s.dev.str.mode ≠ .txStreaming ∨ iesOf .thr s = false ∨ fitsTxFifo (txNext s) s → ∃ u,
      exec (.strStep (if iesOf .thr s then .thrFall else .thrRise)) { s with dev.gie := false } = .next u ∧
      exec .isrThr s = .next { u with
        dev.gpio.ifg := withBit u.dev.gpio.ifg s.par.thrBit false
        dev.gie := true }) ∧
    (isrEnabled .thr s = true → s.dev.str.mode = .txStreaming → iesOf .thr s = true → ¬fitsTxFifo (txNext s) s →
      exec .isrThr s = .fault .fifoOverfill) ∧
    (isrEnabled .thr s = false → exec .isrThr s = .next s) ∧
    (isrEnabled .pkt s = true → isrEnabled .thr s = true →
      (s.par.irqOrder = .pktFirst → runTurn .isrThr s = .next s ∧ runTurn .isrPkt s = exec .isrPkt s) ∧
      (s.par.irqOrder = .thrFirst → runTurn .isrPkt s = .next s ∧ runTurn .isrThr s = exec .isrThr s) ∧
      (s.par.irqOrder = .any → runTurn .isrPkt s = exec .isrPkt s ∧ runTurn .isrThr s = exec .isrThr s))

/-! ## The transport -/

/-- `SEND_COMMAND` whole (R100): the block goes to the link whole, behind what is in flight; a payload of more than 255 bytes is
refused and nothing is written. -/
def Obligations.SendCommandPutsOneBlock : Prop :=
  ∀ (c : Cmd) (p : Bytes) (s : State),
    (p.length ≤ 255 → ∃ size : Byte, size.toNat = p.length ∧
      exec (.sendCommand c p) s = .next { s with
        lH2D.flight := s.lH2D.flight ++ typeCode c.blockType :: size :: p
        host.res := .wrote (p.length + 2) }) ∧
    (255 < p.length → exec (.sendCommand c p) s = .next { s with host.res := .fail .refused [] })

/-- `READ_BLOCK` whole (R101): a whole block that is available is taken, no byte beyond it, and handed to what waits for it; else
every available byte is taken, and the read times out when its budget is 0 (the bytes are discarded), or sleeps and polls again.
The sleep is `min(POLL_SLEEP, BUDGET)` ticks, taken off the budget. A later poll goes on from the bytes already taken
(`pollBytes`, see `NoPartialBlockIsDelivered`) and ends in the same three ways. -/
def Obligations.ReadBlockTakesOneBlock : Prop :=
  ∀ (timeout : Nat) (s : State),
    (∀ (code size : Byte) (p rest : Bytes), s.lD2H.avail = code :: size :: (p ++ rest) → p.length = size.toNat →
      exec (.readBlock timeout) s = .next (hostAnswer code p { s with
        host.trh := { acc := code :: size :: p, expv := true, exp := size, budget := timeout }
        lD2H.avail := rest })) ∧
    (splitBlock s.lD2H.avail = none → ∃ trh : Trh, trh.acc = s.lD2H.avail ∧ trh.expv = decide (2 ≤ s.lD2H.avail.length) ∧
      trh.budget = timeout ∧
      (timeout = 0 → exec (.readBlock timeout) s =
        .next (hostTimeout { s with host.trh := { trh with acc := [] }, lD2H.avail := [] })) ∧
      (0 < timeout → exec (.readBlock timeout) s =
        .next { s with host.trh := trh, lD2H.avail := [], host.ctl := .pollSleep :: .poll :: s.host.ctl })) ∧
    (∀ n, n = min s.par.pollSleep s.host.trh.budget →
      runTask .pollSleep s = .next { s with now := s.now + n, host.trh.budget := s.host.trh.budget - n }) ∧
    (∀ (t : Trh) (rest : Bytes) (u : State), pollBytes s.host.trh s.lD2H.avail = (t, rest) →
      u = { s with host.trh := t, lD2H.avail := rest } →
      (t.complete = true → runTask .poll s = .next (hostAnswer (t.acc.headD 0) (t.acc.drop 2) u)) ∧
      (t.complete = false → t.budget = 0 → runTask .poll s = .next (hostTimeout { u with host.trh.acc := [] })) ∧
      (t.complete = false → t.budget ≠ 0 → runTask .poll s = .next { u with host.ctl := .pollSleep :: .poll :: s.host.ctl }))

/-- The guarantee of `READ_BLOCK` (R102), for every poll, the later ones included: the bytes taken and the bytes left are the bytes
there were; a read that completes holds exactly `size + 2` bytes; one that does not has taken all there were. -/
def Obligations.NoPartialBlockIsDelivered : Prop :=
  ∀ (t : Trh) (avail : Bytes),
    (t.expv = false → t.acc.length ≤ 1) → (t.expv = true → 2 ≤ t.acc.length ∧ t.acc.getD 1 0 = t.exp) →
    ∀ (t' : Trh) (rest : Bytes), pollBytes t avail = (t', rest) →
      t'.acc ++ rest = t.acc ++ avail ∧
      (t'.complete = true → ∃ (code size : Byte) (p : Bytes), t'.acc = code :: size :: p ∧ p.length = size.toNat) ∧
      (t'.complete = false → rest = [])

/-- A block read while nothing waits for an answer is `READ_BLOCK`'s own result, of any type, reserved ones included (R101), and a
time-out likewise: the eight reply blocks and a block of a reserved type. -/
def Obligations.PlainReadReturnsTheBlock : Prop :=
  ∀ (p : Bytes) (s : State), awaiting s.host.ctl = false → p.length ≤ 255 →
    (∃ size : Byte, size.toNat = p.length ∧
      (∀ (i : Instr) (code : Byte),
        (i, code) ∈ [(Instr.initEcho p, (0x01 : Byte)), (.txAck p, 0x02), (.rxAck p, 0x03), (.rxCancelEcho p, 0x04),
          (.radioStatusReply p, 0x05), (.echoTestReply p, 0x06), (.txKo p, 0x07), (.rxKo p, 0x08)] →
        exec i s = .next { s with host.res := .block code size p }) ∧
      ∀ code : Byte, exec (.blockReserved .d2h code p) s = .next { s with host.res := .block code size p }) ∧
    hostTimeout s = { s with host.res := .timeout }

/-- How the host classifies the answer to a command (R113), of every type, with the length test of R77 for answers to TX and RX: the
command is sent, its answer read within the time-out R5 names for it; the type of the command is success; the KO of TX or RX fails;
any other type is `BAD_REPLY`. That the environment asks for an exchange of its own, of which commands and at which places in the
host's work, that its failures are logged and that success answers the block are the model's choice (log entry 30). (`decodeReply
code p` is the reply block of type `code`.) -/
def Obligations.HostClassifiesTheAnswer : Prop :=
  ∀ (c : Cmd) (p : Bytes) (s : State) (k : List Task),
    (∀ asked : Prop, asked = ((c = .radioStatus ∨ c = .echoTest) ∧ s.host.sch.armed = false ∧
        (s.host.ctl = [] ∨ s.host.ctl = [.call .schedStart] ∨ s.host.ctl = [.call .schedLoop] ∨
          ∃ n, s.host.ctl = [.sleep n, .call .schedLoop])) →
      (asked → runTurn (.exchange c p) s = .next { s with host.ctl := .exchange c p :: s.host.ctl }) ∧
      (¬asked → runTurn (.exchange c p) s = .next s)) ∧
    (∀ t, t = (match c with
        | .init => s.host.cfg.tInit
        | .tx => s.host.cfg.tAck
        | .rx => s.host.cfg.tFirst
        | .rxCancel => s.host.cfg.tCancel
        | .radioStatus => s.host.cfg.tStatus
        | .echoTest => s.host.cfg.tStatus) →
      p.length ≤ 255 → ∃ size : Byte, size.toNat = p.length ∧
        runTask (.exchange c p) s = .next { s with
          lH2D.flight := s.lH2D.flight ++ typeCode c.blockType :: size :: p
          host.res := .wrote (p.length + 2)
          host.ctl := .call (.readBlock t) :: .awaitReply c :: s.host.ctl }) ∧
    (255 < p.length → runTask (.exchange c p) s = .next { s with host.res := .fail .refused [] }) ∧
    (s.host.ctl = .awaitReply c :: k →
      hostTimeout s = { s with host.ctl := k, host.res := .timeout, log := s.log ++ [.timeout] } ∧
      ∀ (code size : Byte) (res : Result) (l : List LogEvent), p.length = size.toNat →
        (res, l) = (if (c = .tx ∨ c = .rx) ∧ p.length + 2 < 4 then (.fail .notReceived [], [.notReceived])
          else if code = typeCode c.blockType then (.block code size p, [])
          else if (c = .tx ∧ code = 0x07) ∨ (c = .rx ∧ code = 0x08) then (.fail .ko p, [.ko p])
          else (.fail .badReply [code], [.badReply code])) →
        exec (decodeReply code p) s = .next { s with host.ctl := k, host.res := res, log := s.log ++ l })

/-- `HOST_INIT` whole (R114): INIT is sent and its echo awaited; any other answer or a time-out fails the attempt; a second attempt
follows the first failure and never a third. (`decodeReply code p` is the reply block of type `code`, `initEcho` for 0x01.) -/
def Obligations.HostInitTriesTwice : Prop :=
  ∀ (s : State) (k : List Task),
    (s.host.cfg.parms.length ≤ 255 → ∃ size : Byte, size.toNat = s.host.cfg.parms.length ∧
      ∀ n (t : State), t = { s with
          lH2D.flight := s.lH2D.flight ++ 0x01 :: size :: s.host.cfg.parms
          host.res := .wrote (s.host.cfg.parms.length + 2)
          host.ctl := .call (.readBlock s.host.cfg.tInit) :: .awaitInit n :: s.host.ctl } →
        (n = 1 → exec .hostInit s = .next t) ∧ runTask (.initAttempt n) s = .next t) ∧
    (∀ (n : Nat) (code : Byte) (p : Bytes), s.host.ctl = .awaitInit n :: k →
      (code = 0x01 → exec (decodeReply code p) s = .next { s with host.ctl := k, host.res := .ok }) ∧
      ∀ t, t = (if n = 1 then { s with log := s.log ++ [.radioInitAttempt], host.ctl := .initAttempt 2 :: k }
            else { s with
              log := s.log ++ [.radioInitAttempt, .radioInitPersistent]
              host.ctl := k
              host.res := .fail .radioInit [] }) →
        (code ≠ 0x01 → exec (decodeReply code p) s = .next t) ∧ hostTimeout s = t)

/-- `DEV_RECV` whole (R103). With no byte available the step is not enabled. A byte that does not complete the block is kept, the
second one latched as the size. The byte that completes it dispatches the command with `GIE` = 0, after which `GIE` is 1 and the
receiver is empty. And `DEV_SEND` whole (R112): the block at the head of `OUTQ` goes to the link whole, behind what is in flight; with
`OUTQ` empty the step is not enabled. -/
def Obligations.DevMainMovesBytesAndBlocks : Prop :=
  ∀ (s : State) (b : Byte) (rest : Bytes),
    (s.lH2D.avail = [] → exec .devRecv s = .next s) ∧
    (s.lH2D.avail = b :: rest → ∀ trd : Trd,
      trd = (if s.dev.trd.expv = false ∧ 1 ≤ s.dev.trd.acc.length
        then { acc := s.dev.trd.acc ++ [b], expv := true, exp := (s.dev.trd.acc ++ [b]).getD 1 0 }
        else { s.dev.trd with acc := s.dev.trd.acc ++ [b] }) →
      (¬(trd.expv = true ∧ trd.acc.length = trd.exp.toNat + 2) →
        exec .devRecv s = .next { s with dev.trd := trd, lH2D.avail := rest }) ∧
      (∀ (code size : Byte) (p : Bytes) (u : State), trd.expv = true → trd.acc.length = trd.exp.toNat + 2 →
        trd.acc = code :: size :: p →
        exec (decodeCommand code p) { s with dev.trd := trd, lH2D.avail := rest, dev.gie := false } = .next u →
        exec .devRecv s = .next { u with dev.gie := true, dev.trd := { u.dev.trd with acc := [], expv := false } })) ∧
    (∀ (blk : Bytes) (q : List Bytes), s.dev.outq = blk :: q →
      exec .devSend s = .next { s with dev.outq := q, dev.gie := true, lD2H.flight := s.lD2H.flight ++ blk }) ∧
    (s.dev.outq = [] → exec .devSend s = .next s)

/-! ## Segmentation -/

/-- `SEND_BLOCK` whole (R132): the TX block is sent and its answer awaited; length before ack before KO before other types.
(`decodeReply code p` is `txAck` for 0x02, `txKo` for 0x07. A longer chunk: `OnlyBadConfigurationsAreRefused`.) -/
def Obligations.SendBlockRoundTrip : Prop :=
  ∀ (s : State) (k : List Task),
    (∀ (cd : Byte) (chunk : Bytes), chunk.length ≤ 254 → ∃ size : Byte, size.toNat = chunk.length + 1 ∧
      exec (.sendBlock cd chunk) s = .next { s with
        lH2D.flight := s.lH2D.flight ++ 0x02 :: size :: cd :: chunk
        host.res := .wrote (chunk.length + 3)
        host.ctl := .call (.readBlock s.host.cfg.tAck) :: .awaitTx :: s.host.ctl }) ∧
    (s.host.ctl = .awaitTx :: k →
      hostTimeout s = { s with host.ctl := k, host.res := .timeout, log := s.log ++ [.timeout] } ∧
      ∀ (code : Byte) (p : Bytes) (res : Result) (l : List LogEvent),
        (res, l) = (if p.length + 2 < 4 then (.fail .notReceived [], [.notReceived])
          else if code = 0x02 then (.ok, [])
          else if code = 0x07 then (.fail .ko p, [.ko p])
          else (.fail .badReply [code], [.badReply code])) →
        exec (decodeReply code p) s = .next { s with host.ctl := k, host.res := res, log := s.log ++ l })

/-- `RECEIVE_BLOCK` whole (R134): the RX command unless one is outstanding, then the checks on the answer in the rule's order.
(`decodeReply code p` is `rxAck` for 0x03, `rxKo` for 0x08. A `B` outside 3 to 253: `OnlyBadConfigurationsAreRefused`.) -/
def Obligations.ReceiveBlockRoundTrip : Prop :=
  ∀ (s : State) (k : List Task),
    (∀ (b : Byte) (t : Nat), 3 ≤ b.toNat → b.toNat ≤ 253 →
      exec (.receiveBlock b t true) s = .next { s with host.ctl := .call (.readBlock t) :: .awaitRx :: s.host.ctl } ∧
      exec (.receiveBlock b t false) s = .next { s with
        lH2D.flight := s.lH2D.flight ++ [0x03, 0x01, b]
        host.res := .wrote 3
        host.ctl := .call (.readBlock t) :: .awaitRx :: s.host.ctl }) ∧
    (s.host.ctl = .awaitRx :: k →
      hostTimeout s = { s with host.ctl := k, host.res := .timeout, log := s.log ++ [.timeout] } ∧
      ∀ (code : Byte) (p : Bytes) (res : Result) (l : List LogEvent), p.length ≤ 255 →
        (res, l) = (if p.length + 2 < 4 then (.fail .notReceived [], [.notReceived])
          else if code = 0x08 then (.fail .ko p, [.ko p])
          else if code ≠ 0x03 then (.fail .badReply [code], [.badReply code])
          else if p.length < 3 then (.fail .badReply [BitVec.ofNat 8 p.length], [.badReply (BitVec.ofNat 8 p.length)])
          else if (p.getD (p.length - 1) 0).getLsbD 7 = false then (.fail .crc [], [.crc])
          else (.received (p.getD 0 0) ((p.take (p.length - 2)).drop 1), [])) →
        exec (decodeReply code p) s = .next { s with host.ctl := k, host.res := res, log := s.log ++ l })

/-- The blocks of a packet (R130): `ceil(L / (B − 2))` of them, block `i` with countdown `NBLK − 1 − i` and the data at
`i·(B − 2)`, all full but the last, none empty, and together the payload. -/
def Obligations.SegmentsCoverThePayload : Prop :=
  ∀ (payload : Bytes) (b : Nat), 3 ≤ b → blockCount payload.length b ≤ 256 →
    ∀ n, n = blockCount payload.length b →
      payload.length ≤ n * (b - 2) ∧ (∀ q, payload.length ≤ q * (b - 2) → n ≤ q) ∧
      (packetBlocks payload b).length = n ∧ ((packetBlocks payload b).map Prod.snd).flatten = payload ∧
      ∀ i, i < n → ∃ q : Byte × Bytes, (packetBlocks payload b)[i]? = some q ∧ q.1.toNat = n - 1 - i ∧
        (i + 1 < n → q.2.length = b - 2) ∧ 1 ≤ q.2.length ∧ q.2.length ≤ b - 2

/-- `SEND_PACKET` whole (R131), refused outside its limits (R137): block `SEG.IDX` is a `SEND_BLOCK` of its countdown and data; a
good answer moves to the next one, after the delay, or ends in `Ok`; any other answer ends the send with it; an empty payload is
`Ok` at once. -/
def Obligations.SendPacketSendsEveryBlock : Prop :=
  ∀ (payload : Bytes) (b delay : Nat) (s : State),
    (b < 3 ∨ 253 < b ∨ 256 < blockCount payload.length b →
      exec (.sendPacket payload b delay) s = .next { s with host.res := .fail .refused [] }) ∧
    (3 ≤ b → b ≤ 253 → blockCount payload.length b ≤ 256 →
      (payload = [] → exec (.sendPacket payload b delay) s = .next { s with
        host.seg.nblk := 0
        host.seg.idx := 0
        host.res := .ok }) ∧
      (payload ≠ [] → ∃ t, exec (.sendPacket payload b delay) s = .next t ∧
        runTask (.packetBlock payload b delay) { s with
          host.seg.nblk := blockCount payload.length b
          host.seg.idx := 0 } = .next t)) ∧
    (s.host.seg.idx < blockCount payload.length b → s.host.seg.nblk = blockCount payload.length b → 3 ≤ b → b ≤ 253 →
      ∃ (q : Byte × Bytes) (t : State), (packetBlocks payload b)[s.host.seg.idx]? = some q ∧
        runTask (.packetBlock payload b delay) s = .next t ∧
        exec (.sendBlock q.1 q.2) { s with host.ctl := .packetSent payload b delay :: s.host.ctl } = .next t) ∧
    (s.host.res ≠ .ok → runTask (.packetSent payload b delay) s = .next s) ∧
    (s.host.res = .ok → s.host.seg.idx + 1 < s.host.seg.nblk → runTask (.packetSent payload b delay) s = .next { s with
      host.seg.idx := s.host.seg.idx + 1
      host.ctl := (if delay = 0 then [] else [.sleep delay]) ++ .packetBlock payload b delay :: s.host.ctl }) ∧
    (s.host.res = .ok → s.host.seg.nblk ≤ s.host.seg.idx + 1 → runTask (.packetSent payload b delay) s = .next { s with
      host.seg.idx := s.host.seg.idx + 1 })

/-- `RECEIVE_PACKET` whole (R133) with the sequence check of R135: the first block latches `EXPCNT`; every later one must count
down by one; data is appended; countdown 0 ends the packet; a failed block or a break in the sequence discards it whole. `B`
outside 3 to 253 is refused (R137 says so of every call; that it includes this one is read by inference, log entry 15). -/
def Obligations.ReceivePacketReassembles : Prop :=
  ∀ (b t1 t2 : Nat) (armed : Bool) (s : State),
    (b < 3 ∨ 253 < b → exec (.receivePacket b t1 t2 armed) s = .next { s with host.res := .fail .refused [] }) ∧
    (3 ≤ b → b ≤ 253 → exec (.receivePacket b t1 t2 armed) s = .next { s with
      host.seg.asm := []
      host.seg.nread := 0
      host.ctl := .call (.receiveBlock (BitVec.ofNat 8 b) t1 armed) :: .blockReceived b t2 :: s.host.ctl }) ∧
    ((∀ cd d, s.host.res ≠ .received cd d) → runTask (.blockReceived b t2) s = .next { s with host.seg.asm := [] }) ∧
    (∀ (cd : Byte) (d : Bytes), s.host.res = .received cd d → ∀ seg : Seg,
      seg = { s.host.seg with
        nread := s.host.seg.nread + 1
        expcnt := if s.host.seg.nread = 0 then cd.toNat + 1 else s.host.seg.expcnt } →
      (s.host.seg.nread ≠ 0 → cd.toNat + (s.host.seg.nread + 1) ≠ s.host.seg.expcnt →
        runTask (.blockReceived b t2) s = .next { s with
          host.seg := { seg with asm := [] }
          host.res := .fail .seq [cd]
          log := s.log ++ [.seq cd] }) ∧
      (s.host.seg.nread = 0 ∨ cd.toNat + (s.host.seg.nread + 1) = s.host.seg.expcnt →
        (cd = 0 → runTask (.blockReceived b t2) s = .next { s with
          host.seg := { seg with asm := s.host.seg.asm ++ d }
          host.res := .packet (s.host.seg.asm ++ d) }) ∧
        (cd ≠ 0 → runTask (.blockReceived b t2) s = .next { s with
          host.seg := { seg with asm := s.host.seg.asm ++ d }
          host.ctl := .call (.receiveBlock (BitVec.ofNat 8 b) t2 false) :: .blockReceived b t2 :: s.host.ctl })))

/-- The round-trip law (R136): the `(cd, data)` pairs of a packet, presented in order to the loop of `RECEIVE_PACKET`, give the
payload back after exactly `NBLK` blocks, with nothing logged. -/
def Obligations.SegmentationRoundTrip : Prop :=
  ∀ (payload : Bytes) (b t : Nat) (k : List Task) (s : State), payload ≠ [] → 3 ≤ b →
    payload.length ≤ 256 * (b - 2) → s.host.seg.asm = [] → s.host.seg.nread = 0 →
    ∀ u, u = feedBlocks b t k (packetBlocks payload b) s →
      u.host.res = .packet payload ∧ u.host.seg.nread = (payload.length + (b - 3)) / (b - 2) ∧ u.host.ctl = k ∧ u.log = s.log

/-! ## The scheduler -/

/-- `SCHED_START` and `SCHED_LOOP` whole (R237, R220): `SCH` at its reset values (the step number has none), then INIT, arming
and the loop in order; the five steps in order, then the end of the iteration, which stops the loop when `HALT` = 1 and sleeps
otherwise. -/
def Obligations.SchedulerLoopOrder : Prop :=
  ∀ s : State,
    (∃ n, exec .schedStart s = .next { s with
      host.sch := { tri := .idle, tlast := s.now, rxtrig := false, txtrig := false, rbuf := [], tbuf := [], armed := false,
                    halt := false, stepNo := n }
      host.ctl := .call .hostInit :: .call .armRx :: .call .schedLoop :: s.host.ctl }) ∧
    exec .schedLoop s = .next { s with
      host.ctl := .call .step1 :: .call .step2 :: .call .step3 :: .call .step4 :: .call .step5 :: .loopTail :: s.host.ctl } ∧
    (s.host.sch.halt = true → runTask .loopTail s = .next s) ∧
    (s.host.sch.halt = false → runTask .loopTail s = .next { s with
      host.ctl := .sleep s.par.pollSleep :: .call .schedLoop :: s.host.ctl })

/-- `STEP1` whole (R221); as in every step, its number becomes the scheduler's position (R21 (c)). Nothing happens without an
outstanding RX command and a waiting byte; then one packet is received; its bytes are kept, marked and may set the receive
trigger; a packet that does not fit is logged; an empty or failed one re-arms at once, after a cancel when it timed out. -/
def Obligations.Step1PollsTheRadioSide : Prop :=
  ∀ s : State,
    (s.host.sch.armed = false ∨ s.lD2H.avail = [] → exec .step1 s = .next { s with host.sch.stepNo := 1 }) ∧
    (s.host.sch.armed = true → s.lD2H.avail ≠ [] → exec .step1 s = .next { s with
      host.sch.stepNo := 1
      host.ctl := .call (.receivePacket s.host.cfg.b s.host.cfg.tFirst s.host.cfg.tInter true) :: .step1Done :: s.host.ctl }) ∧
    (∀ p, s.host.res = .packet p → p ≠ [] →
      (s.host.sch.rbuf.length + p.length ≤ s.par.rbufCap → runTask .step1Done s = .next { s with
        host.sch.armed := false
        host.sch.rbuf := s.host.sch.rbuf ++ p
        host.sch.tri := .rxActive
        host.sch.tlast := s.now
        host.sch.rxtrig := s.host.sch.rxtrig || decide (s.host.sch.tri = .txActive) }) ∧
      (s.par.rbufCap < s.host.sch.rbuf.length + p.length → runTask .step1Done s = .next { s with
        host.sch.armed := false
        log := s.log ++ [.bufOverflow p.length]
        host.ctl := .call .armRx :: s.host.ctl })) ∧
    (s.host.res = .timeout → runTask .step1Done s = .next { s with
      host.sch.armed := false
      host.ctl := .call .cancelRx :: .call .armRx :: s.host.ctl }) ∧
    (s.host.res ≠ .timeout → (∀ p, s.host.res = .packet p → p = []) → runTask .step1Done s = .next { s with
      host.sch.armed := false
      host.ctl := .call .armRx :: s.host.ctl })

/-- `STEP2` whole (R222): the terminal bytes that fit are taken and marked and may set the transmit trigger; with none that fit
nothing happens. -/
def Obligations.Step2PollsTheTerminalSide : Prop :=
  ∀ (s : State) (k : Nat), k = min s.termIn.length (s.par.tbufCap - s.host.sch.tbuf.length) →
    (k = 0 → exec .step2 s = .next { s with host.sch.stepNo := 2 }) ∧
    (0 < k → exec .step2 s = .next { s with
      termIn := s.termIn.drop k
      host.sch.stepNo := 2
      host.sch.tbuf := s.host.sch.tbuf ++ s.termIn.take k
      host.sch.tri := .txActive
      host.sch.tlast := s.now
      host.sch.txtrig := s.host.sch.txtrig || decide (s.host.sch.tri = .rxActive) })

/-- `STEP3`, `FLUSH_R` and `CLEAR_STATE(R)` whole (R223, R230), with the window test of R226: the radio buffer goes to the terminal
byte for byte, the triggers and the tri-state are cleared, and reception is re-armed unless armed or halted. -/
def Obligations.Step3ForwardsTheRadioBuffer : Prop :=
  ∀ s : State,
    exec .flushR s = .next { s with
      termOut := s.termOut ++ s.host.sch.rbuf
      host.sch.rbuf := []
      host.sch.rxtrig := false
      host.sch.txtrig := false
      host.sch.tri := .idle
      host.ctl := (if s.host.sch.armed = false ∧ s.host.sch.halt = false then [.call .armRx] else []) ++ s.host.ctl } ∧
    (s.host.sch.rbuf ≠ [] ∧ (s.host.sch.rxtrig = true ∨ s.host.cfg.radioWin = 0 ∨
        s.now - s.host.sch.tlast > s.host.cfg.radioWin) →
      ∃ t, exec .step3 s = .next t ∧ exec .flushR { s with host.sch.stepNo := 3 } = .next t) ∧
    (¬(s.host.sch.rbuf ≠ [] ∧ (s.host.sch.rxtrig = true ∨ s.host.cfg.radioWin = 0 ∨
        s.now - s.host.sch.tlast > s.host.cfg.radioWin)) →
      exec .step3 s = .next { s with host.sch.stepNo := 3 })

/-- `STEP4` and `FLUSH_T` whole (R224, R231), with the window test of R226: an outstanding reception is cancelled first; the framer
runs over the buffer; a remainder is sent between the keyup and the keydown delay now in force, a time-out is followed by a
cancel; then the state is cleared and reception re-armed unless halted. -/
def Obligations.Step4TransmitsTheTerminalBuffer : Prop :=
  ∀ s : State,
    (s.host.sch.tbuf ≠ [] ∧ (s.host.sch.txtrig = true ∨ s.host.cfg.serialWin = 0 ∨
        s.now - s.host.sch.tlast > s.host.cfg.serialWin) →
      ∃ t, exec .step4 s = .next t ∧ exec .flushT { s with host.sch.stepNo := 4 } = .next t) ∧
    (¬(s.host.sch.tbuf ≠ [] ∧ (s.host.sch.txtrig = true ∨ s.host.cfg.serialWin = 0 ∨
        s.now - s.host.sch.tlast > s.host.cfg.serialWin)) →
      exec .step4 s = .next { s with host.sch.stepNo := 4 }) ∧
    (s.host.sch.armed = true → exec .flushT s = .next { s with host.ctl := .call .cancelRx :: .flushTProcess :: s.host.ctl }) ∧
    (s.host.sch.armed = false → ∃ t, exec .flushT s = .next t ∧ runTask .flushTProcess s = .next t) ∧
    (∀ u, exec (.kissProcess s.host.sch.tbuf) s = .next u → ∀ v, v = { u with host.res := s.host.res } →
      (u.host.kiss.rem = [] → ∃ t, runTask .flushTProcess s = .next t ∧ runTask .flushTEnd v = .next t) ∧
      (u.host.kiss.rem ≠ [] → runTask .flushTProcess s = .next { v with
        host.ctl := .sleep u.host.tnc.keyup :: .call (.sendPacket u.host.kiss.rem s.host.cfg.b s.host.cfg.blkDelay) ::
          .flushTSent :: s.host.ctl })) ∧
    (s.host.res = .ok → runTask .flushTSent s = .next { s with
      host.ctl := .sleep s.host.tnc.keydown :: .flushTEnd :: s.host.ctl }) ∧
    (s.host.res = .timeout → runTask .flushTSent s = .next { s with
      host.ctl := .call .cancelRx :: .flushTEnd :: s.host.ctl }) ∧
    (s.host.res ≠ .ok → s.host.res ≠ .timeout → ∃ t, runTask .flushTSent s = .next t ∧ runTask .flushTEnd s = .next t) ∧
    runTask .flushTEnd s = .next { s with
      host.sch.tbuf := []
      host.sch.rxtrig := false
      host.sch.txtrig := false
      host.sch.tri := .idle
      host.ctl := (if s.host.sch.halt = false then [.call .armRx] else []) ++ s.host.ctl }

/-- `STEP5` whole (R225): with no trigger fired, the side the tri-state names is flushed when its configured window has run out;
else nothing. -/
def Obligations.Step5ForcesAFlush : Prop :=
  ∀ s u : State, u = { s with host.sch.stepNo := 5 } →
    (s.host.sch.rxtrig = false → s.host.sch.txtrig = false → s.host.sch.tri = .rxActive → s.host.cfg.radioWin ≠ 0 →
      s.now - s.host.sch.tlast > s.host.cfg.radioWin → ∃ t, exec .step5 s = .next t ∧ exec .flushR u = .next t) ∧
    (s.host.sch.rxtrig = false → s.host.sch.txtrig = false → s.host.sch.tri = .txActive → s.host.cfg.serialWin ≠ 0 →
      s.now - s.host.sch.tlast > s.host.cfg.serialWin → ∃ t, exec .step5 s = .next t ∧ exec .flushT u = .next t) ∧
    (s.host.sch.rxtrig = true ∨ s.host.sch.txtrig = true ∨ s.host.sch.tri = .idle ∨
      (s.host.sch.tri = .rxActive ∧ (s.host.cfg.radioWin = 0 ∨ s.now - s.host.sch.tlast ≤ s.host.cfg.radioWin)) ∨
      (s.host.sch.tri = .txActive ∧ (s.host.cfg.serialWin = 0 ∨ s.now - s.host.sch.tlast ≤ s.host.cfg.serialWin)) →
      exec .step5 s = .next u)

/-- `elapsed`, `CLEAR_STATE`, `ARM_RX` and `CANCEL_RX` whole (R226 to R229). `CANCEL_RX`: the cancel is sent and its echo awaited; any
other block is logged, dropped, and the next one read; the echo or a time-out (logged) ends it with `ARMED` = 0. (`decodeReply code
p` is `rxCancelEcho` for 0x04.) -/
def Obligations.SchedulerHelpers : Prop :=
  ∀ (s : State) (w : Nat) (k : List Task),
    exec (.elapsed w) s = .next { s with host.res := .flag (decide (w = 0 ∨ s.now - s.host.sch.tlast > w)) } ∧
    exec (.clearState .r) s = .next { s with
      host.sch.rbuf := []
      host.sch.rxtrig := false
      host.sch.txtrig := false
      host.sch.tri := .idle } ∧
    exec (.clearState .t) s = .next { s with
      host.sch.tbuf := []
      host.sch.rxtrig := false
      host.sch.txtrig := false
      host.sch.tri := .idle } ∧
    (s.host.cfg.b ≤ 255 → ∃ b : Byte, b.toNat = s.host.cfg.b ∧ exec .armRx s = .next { s with
      lH2D.flight := s.lH2D.flight ++ [0x03, 0x01, b]
      host.res := .wrote 3
      host.sch.armed := true }) ∧
    exec .cancelRx s = .next { s with
      lH2D.flight := s.lH2D.flight ++ [0x04, 0x00]
      host.res := .wrote 2
      host.ctl := .call (.readBlock s.host.cfg.tCancel) :: .awaitCancel :: s.host.ctl } ∧
    (s.host.ctl = .awaitCancel :: k →
      (∀ p : Bytes, exec (decodeReply 0x04 p) s = .next { s with host.ctl := k, host.sch.armed := false }) ∧
      (∀ (code : Byte) (p : Bytes), code ≠ 0x04 → exec (decodeReply code p) s = .next { s with
        log := s.log ++ [.cancelledRx code]
        host.ctl := .call (.readBlock s.host.cfg.tCancel) :: .awaitCancel :: k }) ∧
      hostTimeout s = { s with host.ctl := k, host.sch.armed := false, log := s.log ++ [.timeout] })

/-! ## The machine -/

/-- A step runs the decoded instruction. (a) When `DEV_MAIN` has the turn and the byte at the head of `L_H2D` completes a block whose
bytes decode to `i`, the step is `exec i` inside the bracket of R103, the byte taken, the receiver then empty. (b) When the host has
the turn and its next work is the call of a well-formed `i`, the step is `exec i` with that work taken off. (c) When a harness calls
a well-formed `i`, the step is `exec i`. That the agenda says whose turn it is (log entry 8), that the host's work stands on a list
(log entry 1) and that a harness may call every instruction (log entry 14) are the model's choice. -/
def Obligations.StepRunsTheDecodedInstruction : Prop :=
  ∀ (s : State) (i : Instr) (rest : List Turn), configOk s = true → i.wf = true →
    (∀ (b : Byte) (avail acc : Bytes), s.agenda = .devRecv :: rest → s.lH2D.avail = b :: avail → acc = s.dev.trd.acc ++ [b] →
      (trdPush s.dev.trd b).complete = true → decode .command acc = .ok (i, []) →
      step s = andThen
        (exec i { s with agenda := rest, lH2D.avail := avail, dev.trd := trdPush s.dev.trd b, dev.gie := false })
        fun u => .next { u with dev.gie := true, dev.trd.acc := [], dev.trd.expv := false }) ∧
    (∀ k, s.agenda = .host :: rest → s.host.ctl = .call i :: k → step s = exec i { s with agenda := rest, host.ctl := k }) ∧
    (s.agenda = .direct i :: rest → step s = exec i { s with agenda := rest })

/-- The invariant holds at reset. -/
def Obligations.InvAtReset : Prop := Inv State.reset

/-- EVERY STEP KEEPS THE INVARIANT, whoever takes it and whatever the agenda chooses: the receivers hold at most one incomplete
block (R26, R62, R103), composed blocks are whole (R28), the streamer's buffers and positions stay in their bounds (R32, R33), the
FIFOs within their capacity (R37), the TX FIFO is empty outside a transmission (R151), the threshold line has its level (R301),
`IDLE` has both lines disabled (R166), `GIE` is 1 between steps (R295), the scheduler's buffers stay in their capacities (R62), and
`TRI` and the triggers imply bytes (R236). -/
def Obligations.EveryStepKeepsInv : Prop :=
  ∀ s t : State, Inv s → step s = .next t → Inv t

/-- NO FAULT: from a state with the invariant no step faults, a harness's direct calls apart. "The streamer never does this while
the radio meets R301" (R63): neither FIFO is overfilled nor read beyond its content under the constraints of R12. And no step
at all, from any state, reads beyond the RX FIFO. -/
def Obligations.NoStepFaults : Prop :=
  (∀ (s : State) (f : Fault), Inv s → directNext s = false → step s ≠ .fault f) ∧
  (∀ s : State, step s ≠ .fault .fifoUnderread)

/-- What is refused. A step refuses exactly the configurations that break a range of R5, a constraint of R12 or the bounds of `B`
(R137), whatever the agenda holds; that `step` is what refuses is log entry 16. Every other refusal is an answer, and the run goes on
(R289): a call outside its operands' limits does nothing, a host operation answering `Fail(REFUSED)` (log entry 14); `SEND_BLOCK` with
a chunk that makes no block and `RECEIVE_BLOCK` with `B` outside 3 to 253 answer it too (log entry 15). -/
def Obligations.OnlyBadConfigurationsAreRefused : Prop :=
  (∀ (s : State) (r : Refusal), step s = .refused r ↔ r = .badConfig ∧
    ¬(1 ≤ s.par.pollSleep ∧ 2 ≤ s.par.fifoSize ∧ 1 ≤ s.par.txThr ∧ s.par.txThr ≤ s.par.fifoSize - 1 ∧
      1 ≤ s.par.txChunk ∧ s.par.txChunk ≤ s.par.fifoSize - s.par.txThr + 1 ∧ 1 ≤ s.par.rxThr ∧ s.par.rxThr ≤ s.par.fifoSize ∧
      1 ≤ s.par.rxChunk ∧ s.par.rxChunk ≤ s.par.rxThr ∧ s.par.pktBit ≠ s.par.thrBit ∧ 1 ≤ s.par.parmsLen ∧
      s.par.parmsLen ≤ 255 ∧ s.par.statusLen ≤ 255 ∧ 1 ≤ s.par.kissUnit ∧ 1 ≤ s.par.rbufCap ∧ 1 ≤ s.par.tbufCap ∧
      3 ≤ s.host.cfg.b ∧ s.host.cfg.b ≤ 253)) ∧
  (∀ x y : BlockType, typeCode x = typeCode y → x = y) ∧
  (∀ (i : Instr) (s : State) (rest : List Turn), configOk s = true → s.agenda = .direct i :: rest → i.wf = false →
    (hostOp i = true → step s = .next { s with agenda := rest, host.res := .fail .refused [] }) ∧
    (hostOp i = false → step s = .next { s with agenda := rest })) ∧
  (∀ (cd : Byte) (chunk : Bytes) (s : State), 254 < chunk.length →
    exec (.sendBlock cd chunk) s = .next { s with host.res := .fail .refused [] }) ∧
  (∀ (b : Byte) (t : Nat) (skip : Bool) (s : State), b.toNat < 3 ∨ 253 < b.toNat →
    exec (.receiveBlock b t skip) s = .next { s with host.res := .fail .refused [] })

/-- `Sleep(t)` lets `t` ticks pass and nothing else (R7, R8); the clock, the terminal, the link and the choice of `AIRLEN` do to the
machine exactly this (R8, R9, R56, R301); and `now` "advances only by `Sleep` of the host or by the environment's `CLOCK` agent"
(R340). That a sleep is one step of exactly `t` ticks is the model's choice (log entry 18), as is the agenda (log entry 8). -/
def Obligations.SleepAndEnvironmentTurns : Prop :=
  (∀ (s : State) (n k : Nat) (b : Bytes) (a : Option Nat),
    runTask (.sleep n) s = .next { s with now := s.now + n } ∧
    runTurn (.tick n) s = .next { s with now := s.now + n } ∧
    runTurn (.termPut b) s = .next { s with termIn := s.termIn ++ b } ∧
    runTurn (.termTake k) s = .next { s with termOut := s.termOut.drop k } ∧
    runTurn (.linkH2D k) s = .next { s with
      lH2D := { avail := s.lH2D.avail ++ s.lH2D.flight.take k, flight := s.lH2D.flight.drop k } } ∧
    runTurn (.linkD2H k) s = .next { s with
      lD2H := { avail := s.lD2H.avail ++ s.lD2H.flight.take k, flight := s.lD2H.flight.drop k } } ∧
    runTurn (.airLen a) s = .next (if a = some 0 then s else { s with radio.airSel := a })) ∧
  ∀ (s t u : State) (τ : Turn), nextTurn s = (some τ, u) → step s = .next t → t.now ≠ s.now →
    τ = .tick (t.now - s.now) ∨
    τ = .host ∧ ∃ k, s.host.ctl = .sleep (t.now - s.now) :: k ∨
      s.host.ctl = .pollSleep :: k ∧ t.now - s.now = min s.par.pollSleep s.host.trh.budget

/-- "No rule of the block writes them afterwards" (R25): no step changes the configuration registers or the parameters; `now` never
decreases (R8). That a new start of the host process leaves the configuration registers as they are, where R39 gives them whatever the
external configuration supplies, is the model's choice (log entry 21). -/
def Obligations.ConfigurationIsNeverWritten : Prop :=
  ∀ s t : State, step s = .next t → t.host.cfg = s.host.cfg ∧ t.par = s.par ∧ s.now ≤ t.now

/-- The two halves share nothing but the two link channels (R20): an instruction of the host half changes nothing of the device
half or the radio, and one of the device half nothing of the host half, the terminal channels or the clock. -/
def Obligations.HalvesShareOnlyTheLink : Prop :=
  ∀ (i : Instr) (s t : State), exec i s = .next t →
    (hostOp i = true → t = { s with
      now := t.now
      host := t.host
      lH2D := t.lH2D
      lD2H := t.lD2H
      termIn := t.termIn
      termOut := t.termOut
      log := t.log }) ∧
    (hostOp i = false → t = { s with
      dev := t.dev
      lH2D := t.lH2D
      lD2H := t.lD2H
      radio := t.radio
      freeCtr := t.freeCtr })

/-- The link delivers its bytes in order, each exactly once (R56). What is on a channel, the available bytes and those in flight, is
after a turn what the turn left of it and then what it put. A turn of the link takes and puts nothing, and makes the next `k`
bytes available. Of `L_H2D` only `DEV_RECV` takes, one byte (R103), and the host puts one whole command block or nothing. Of `L_D2H`
only a poll takes, what `pollBytes` takes (R101), and only `DEV_SEND` puts, the block at the head of `OUTQ` (R112). The start of a
half, after which the channels are empty (R39), is left out. -/
def Obligations.LinkDeliversInOrder : Prop :=
  ∀ (s t u : State) (τ : Turn), nextTurn s = (some τ, u) → step s = .next t → startTurn τ = false →
    (∀ k, τ = .linkH2D k → t.lH2D.avail ++ t.lH2D.flight = u.lH2D.avail ++ u.lH2D.flight ∧
      t.lH2D.avail = u.lH2D.avail ++ u.lH2D.flight.take k ∧ t.lD2H = u.lD2H) ∧
    (∀ k, τ = .linkD2H k → t.lD2H.avail ++ t.lD2H.flight = u.lD2H.avail ++ u.lD2H.flight ∧
      t.lD2H.avail = u.lD2H.avail ++ u.lD2H.flight.take k ∧ t.lH2D = u.lH2D) ∧
    ((∀ k, τ ≠ .linkH2D k) → t.lH2D.avail = leftH2D τ u ∧
      ∃ put, t.lH2D.flight = u.lH2D.flight ++ put ∧
        (put ≠ [] → (τ = .host ∨ ∃ i, τ = .direct i ∧ hostOp i = true) ∧
          ∃ (c : Cmd) (size : Byte) (p : Bytes), size.toNat = p.length ∧ put = typeCode c.blockType :: size :: p)) ∧
    ((∀ k, τ ≠ .linkD2H k) → t.lD2H.avail = leftD2H τ u ∧ t.lD2H.flight = u.lD2H.flight ++ putsD2H τ u)

/-- Streaming is entered only from `IDLE`, and left only to `IDLE`, by the packet line's falling edge or an explicit cancel (R21 (a),
R150): over every instruction. -/
def Obligations.StreamingEndsByFallOrCancel : Prop :=
  ∀ (i : Instr) (s t : State), exec i s = .next t → t.dev.str.mode ≠ s.dev.str.mode →
    (s.dev.str.mode = .idle ∨ t.dev.str.mode = .idle) ∧
    (t.dev.str.mode = .idle →
      i = .evPktFall ∨ i = .strStep .pktFall ∨ (i = .isrPkt ∧ iesOf .pkt s = true) ∨ i = .evCancel ∨ i = .strStep .cancel ∨
      (∃ p, i = .rxCancel p) ∨ (∃ p, i = .devDispatch 0x04 p) ∨
      (i = .devRecv ∧ (trdPush s.dev.trd (s.lH2D.avail.headD 0)).acc.head? = some 0x04))

/-- `HALT` is set only by the KISS abort-process command (R200, R234): over every instruction, over every task of the host (`FLUSH_T`
runs the framer in one), and over every turn. Only `SCHED_START` and a new start of the host process clear it (R39). -/
def Obligations.HaltOnlyByAbort : Prop :=
  ∀ s t : State,
    (∀ i : Instr, exec i s = .next t →
      (s.host.sch.halt = false → t.host.sch.halt = true →
        (∃ port v, i = .kissAbort port v) ∨
        (∃ buf, i = .kissProcess buf ∧ ∃ f ∈ tokensOf buf, isAbortFrame f = true) ∨
        ((i = .flushT ∨ i = .step4 ∨ i = .step5) ∧ ∃ f ∈ tokensOf s.host.sch.tbuf, isAbortFrame f = true)) ∧
      (s.host.sch.halt = true → t.host.sch.halt = false → i = .schedStart)) ∧
    (∀ k : Task, runTask k s = .next t → t.host.sch.halt ≠ s.host.sch.halt →
      t.host.sch.halt = true ∧ k = .flushTProcess ∧ ∃ f ∈ tokensOf s.host.sch.tbuf, isAbortFrame f = true) ∧
    (∀ τ : Turn, runTurn τ s = .next t → t.host.sch.halt ≠ s.host.sch.halt →
      τ = .host ∨ (∃ i, τ = .direct i) ∨ ((∃ m n, τ = .hostStart m n) ∧ t.host.sch.halt = false))

/-- The reference radio's own steps. While it transmits (R301, steps (1) to (4)): sync, one byte from the FIFO, underflow, end. While
it receives (R302, steps (1) to (3)): a packet is presented only while it listens; its bytes and the status pair go to the RX FIFO
until it is full, which is an overflow; then the packet line falls. -/
def Obligations.RadioMovesByteByByte : Prop :=
  (∀ s : State, s.radio.rstate = .tx →
    (s.radio.synced = false → runTurn .radio s = .next (setLine .pkt true { s with radio.synced := true })) ∧
    (s.radio.synced = true → s.radio.sent < s.radio.airLen → ∀ b q, s.radio.txFifo = b :: q →
      runTurn .radio s = .next (updateThr { s with
        radio.txFifo := q
        radio.sent := s.radio.sent + 1
        radio.aired := s.radio.aired ++ [b] })) ∧
    (s.radio.synced = true → s.radio.sent < s.radio.airLen → s.radio.txFifo = [] →
      runTurn .radio s = .next (setLine .pkt false { s with radio.txUnf := true, radio.rstate := .idle })) ∧
    (s.radio.synced = true → s.radio.airLen ≤ s.radio.sent →
      runTurn .radio s = .next (setLine .pkt false { s with radio.rstate := .idle }))) ∧
  (∀ (s : State) (air : Bytes) (rssi crclqi : Byte),
    (s.radio.rstate = .rx → s.radio.inPkt = false → air ≠ [] → runTurn (.air air rssi crclqi) s =
      .next (setLine .pkt true { s with radio.inPkt := true, radio.q := air ++ [rssi, crclqi] })) ∧
    (s.radio.rstate ≠ .rx → runTurn (.air air rssi crclqi) s = .next s) ∧
    (s.radio.rstate = .rx → s.radio.inPkt = true →
      (∀ b q, s.radio.q = b :: q → s.radio.rxFifo.length < s.par.fifoSize → runTurn .radio s =
        .next (updateThr { s with radio.rxFifo := s.radio.rxFifo ++ [b], radio.q := q })) ∧
      (∀ b q, s.radio.q = b :: q → s.par.fifoSize ≤ s.radio.rxFifo.length → runTurn .radio s =
        .next { s with radio.rxOvf := true, radio.q := [] }) ∧
      (s.radio.q = [] → runTurn .radio s = .next (setLine .pkt false { s with radio.rstate := .idle }))))

/-- What the resets leave (R39): the values the rule states, in `State.reset` (host process start and device power-up together), after
a power-up of the device half and after a start of the host process (R330 (a), (b)). A device powered up late ignores TX and RX
(R332). And "nothing in the block survives a reset of its half" (R40): what a start leaves of its half does not depend on what was
there, the configuration registers of the host apart. What R39 leaves unspecified has the model's own values (log entries 6, 7, 26)
and is not stated here. That both lines are low then is read from R39 and R301 by inference (log entry 7). That a half's start is a
turn, what it does to bytes on the way, and that the configuration registers keep their values is the model's choice (log entry 21). -/
def Obligations.ResetLeavesTheStatedValues : Prop :=
  (State.reset.host.sch = { tri := .idle, tlast := State.reset.now, rxtrig := false, txtrig := false, rbuf := [], tbuf := [],
                            armed := false, halt := false, stepNo := State.reset.host.sch.stepNo } ∧
    State.reset.dev.str = { mode := .idle, cntPktRise := 0, cntPktFall := 0, cntThrRise := 0, cntThrFall := 0, txbuf := [],
                            txlen := 0, txpos := 0, rxbuf := [], rxlen := 0 } ∧
    State.reset.dev.trd.acc = [] ∧ State.reset.dev.trd.expv = false ∧ State.reset.dev.outq = [] ∧
    State.reset.dev.inited = false ∧ State.reset.dev.gie = true ∧
    (∀ x, ieOf x State.reset = false ∧ ifgOf x State.reset = false ∧ iesOf x State.reset = false ∧ pinOf x State.reset = false) ∧
    State.reset.lH2D = { avail := [], flight := [] } ∧ State.reset.lD2H = { avail := [], flight := [] } ∧
    State.reset.termIn = [] ∧ State.reset.termOut = [] ∧ State.reset.radio.rstate = .idle ∧
    State.reset.radio.txFifo = [] ∧ State.reset.radio.rxFifo = [] ∧
    State.reset.radio.txUnf = false ∧ State.reset.radio.rxOvf = false) ∧
  (∀ s : State, ∃ t, runTurn .devPowerUp s = .next t ∧
    t = { s with
      dev :=
        { trd := { acc := [], expv := false, exp := t.dev.trd.exp }
          outq := []
          parms := t.dev.parms
          inited := false
          str := { mode := .idle, cntPktRise := 0, cntPktFall := 0, cntThrRise := 0, cntThrFall := 0, txbuf := [],
                   txlen := 0, txpos := 0, rxbuf := [], rxlen := 0 }
          gpio := t.dev.gpio
          gie := true }
      radio := { s.radio with rstate := .idle, txFifo := [], rxFifo := [], txUnf := false, rxOvf := false }
      lH2D := { avail := [], flight := [] }
      lD2H := { avail := [], flight := [] } } ∧
    (∀ x, ieOf x t = false ∧ ifgOf x t = false ∧ iesOf x t = false ∧ pinOf x t = false) ∧
    ∀ p, exec (.tx p) t = .next t ∧ exec (.rx p) t = .next t) ∧
  (∀ (s : State) (keyup keydown : Nat), ∃ t, runTurn (.hostStart keyup keydown) s = .next t ∧
    t = { s with
      host :=
        { t.host with
          sch := { tri := .idle, tlast := s.now, rxtrig := false, txtrig := false, rbuf := [], tbuf := [], armed := false,
                   halt := false, stepNo := t.host.sch.stepNo }
          tnc.keyup := keyup
          tnc.keydown := keydown
          cfg := s.host.cfg
          ctl := [.call .schedStart] }
      lH2D := { avail := [], flight := [] }
      lD2H := { avail := [], flight := [] }
      termIn := []
      termOut := [] }) ∧
  (∀ s₁ s₂ t₁ t₂ : State,
    (s₁.par = s₂.par → runTurn .devPowerUp s₁ = .next t₁ → runTurn .devPowerUp s₂ = .next t₂ → t₁.dev = t₂.dev) ∧
    (s₁.now = s₂.now → s₁.host.cfg = s₂.host.cfg → ∀ keyup keydown : Nat, runTurn (.hostStart keyup keydown) s₁ = .next t₁ →
      runTurn (.hostStart keyup keydown) s₂ = .next t₂ → t₁.host = t₂.host))
end

