-- ==== Sys2Proof/Laws/Bits.lean ====
section
/-! SUPPORT. The laws of one bit of a GPIO register: reading after writing it, and writing it twice. -/

namespace Sys2Proof.Machine

/-- Bit `m` of a register after bit `n` was written. -/
@[simp] theorem bitAt_withBit (v : Byte) (n m : Fin 8) (b : Bool) :
    bitAt (withBit v n b) m = if m = n then b else bitAt v m := by
  have hn := n.isLt
  have hm := m.isLt
  unfold bitAt withBit
  cases b <;> simp only [Bool.false_eq_true, if_true, if_false]
  · rw [BitVec.getLsbD_and, BitVec.getLsbD_not, BitVec.getLsbD_shiftLeft]
    by_cases h : m = n
    · subst h; simp
    · have : m.val ≠ n.val := fun e => h (Fin.ext e)
      simp only [h, if_false]
      by_cases h2 : m.val < n.val
      · simp [h2, hm]
      · have : m.val - n.val ≠ 0 := by omega
        simp [h2, hm, BitVec.getLsbD_one, this]
  · rw [BitVec.getLsbD_or, BitVec.getLsbD_shiftLeft]
    by_cases h : m = n
    · subst h; simp
    · have : m.val ≠ n.val := fun e => h (Fin.ext e)
      simp only [h, if_false]
      by_cases h2 : m.val < n.val
      · simp [h2]
      · have : m.val - n.val ≠ 0 := by omega
        simp [h2, BitVec.getLsbD_one, this]

/-- Two registers with the same bits are equal. -/
theorem byte_ext {v w : Byte} (h : ∀ n : Fin 8, bitAt v n = bitAt w n) : v = w :=
  BitVec.eq_of_getLsbD_eq fun i hi => h ⟨i, hi⟩

/-- Writing the value a bit already has changes nothing. -/
@[simp] theorem withBit_self (v : Byte) (n : Fin 8) : withBit v n (bitAt v n) = v := by
  apply byte_ext; intro m; rw [bitAt_withBit]; split
  · next h => rw [h]
  · rfl

/-- The last write of a bit wins. -/
@[simp] theorem withBit_twice (v : Byte) (n : Fin 8) (b c : Bool) : withBit (withBit v n b) n c = withBit v n c := by
  apply byte_ext; intro m; simp only [bitAt_withBit]; split <;> rfl

/-- Writes of two different bits may be swapped. -/
theorem withBit_comm (v : Byte) {n m : Fin 8} (h : n ≠ m) (b c : Bool) :
    withBit (withBit v n b) m c = withBit (withBit v m c) n b := by
  apply byte_ext; intro k; simp only [bitAt_withBit]
  split
  · next hk => subst hk; simp [Ne.symm h]
  · rfl

/-- A line's bit position is `PKT_BIT` or `THR_BIT`. -/
@[simp] theorem lineBit_pkt (p : Params) : lineBit p .pkt = p.pktBit := rfl
@[simp] theorem lineBit_thr (p : Params) : lineBit p .thr = p.thrBit := rfl

/-- Clearing both lines' bits leaves bit `n` only if it belongs to neither. -/
@[simp] theorem bitAt_clearLines (p : Params) (v : Byte) (n : Fin 8) :
    bitAt (clearLines p v) n = if n = p.pktBit ∨ n = p.thrBit then false else bitAt v n := by
  unfold clearLines; simp only [bitAt_withBit]
  by_cases h1 : n = p.thrBit <;> by_cases h2 : n = p.pktBit <;> simp [h1, h2]

/-- `[PKT]` and `[THR]` are the bits of the mask. -/
theorem bitAt_lineMask (p : Params) (n : Fin 8) : bitAt (lineMask p) n = decide (n = p.pktBit ∨ n = p.thrBit) := by
  have h (v : Byte) (k : Fin 8) : v ||| (1#8 <<< k.val) = withBit v k true := rfl
  have e : lineMask p = withBit (withBit 0#8 p.pktBit true) p.thrBit true := by
    rw [← h, ← h]; simp [lineMask]
  rw [e]; simp only [bitAt_withBit]
  by_cases h1 : n = p.thrBit <;> by_cases h2 : n = p.pktBit <;> simp [h1, h2, bitAt]

/-- A read of a register returns bits `[PKT]` and `[THR]` as they stand (R34), whatever the free byte is. -/
theorem readReg_readsAs (v : Byte) (s : State) : ReadsAs s.par v (readReg v s) := by
  have key (n : Fin 8) (h : n = s.par.pktBit ∨ n = s.par.thrBit) : bitAt (readReg v s) n = bitAt v n := by
    have hm : (lineMask s.par).getLsbD n.val = true := by
      have := bitAt_lineMask s.par n; unfold bitAt at this; rw [this]; simpa using h
    unfold bitAt readReg
    rw [BitVec.getLsbD_or, BitVec.getLsbD_and, BitVec.getLsbD_and, BitVec.getLsbD_not, hm]
    simp
  exact ⟨key _ (.inl rfl), key _ (.inr rfl)⟩

end Sys2Proof.Machine
end

