-- ==== Sys2Proof/Laws/State.lean ====
section
/-! SUPPORT. One lemma per field per update: what a named update of the state does to each field, so that no later proof unfolds a
record update. -/

namespace Sys2Proof.Machine

/-! `setPin` -/

@[simp] theorem setPin_par (x : Line) (b : Bool) (s : State) : (setPin x b s).par = s.par := rfl
@[simp] theorem setPin_now (x : Line) (b : Bool) (s : State) : (setPin x b s).now = s.now := rfl
@[simp] theorem setPin_host (x : Line) (b : Bool) (s : State) : (setPin x b s).host = s.host := rfl
@[simp] theorem setPin_trd (x : Line) (b : Bool) (s : State) : (setPin x b s).dev.trd = s.dev.trd := rfl
@[simp] theorem setPin_outq (x : Line) (b : Bool) (s : State) : (setPin x b s).dev.outq = s.dev.outq := rfl
@[simp] theorem setPin_parms (x : Line) (b : Bool) (s : State) : (setPin x b s).dev.parms = s.dev.parms := rfl
@[simp] theorem setPin_inited (x : Line) (b : Bool) (s : State) : (setPin x b s).dev.inited = s.dev.inited := rfl
@[simp] theorem setPin_str (x : Line) (b : Bool) (s : State) : (setPin x b s).dev.str = s.dev.str := rfl
@[simp] theorem setPin_pin (x : Line) (b : Bool) (s : State) : (setPin x b s).dev.gpio.pin = withBit s.dev.gpio.pin (lineBit s.par x) b := rfl
@[simp] theorem setPin_ifg (x : Line) (b : Bool) (s : State) : (setPin x b s).dev.gpio.ifg = s.dev.gpio.ifg := rfl
@[simp] theorem setPin_ie (x : Line) (b : Bool) (s : State) : (setPin x b s).dev.gpio.ie = s.dev.gpio.ie := rfl
@[simp] theorem setPin_ies (x : Line) (b : Bool) (s : State) : (setPin x b s).dev.gpio.ies = s.dev.gpio.ies := rfl
@[simp] theorem setPin_gie (x : Line) (b : Bool) (s : State) : (setPin x b s).dev.gie = s.dev.gie := rfl
@[simp] theorem setPin_lH2D (x : Line) (b : Bool) (s : State) : (setPin x b s).lH2D = s.lH2D := rfl
@[simp] theorem setPin_lD2H (x : Line) (b : Bool) (s : State) : (setPin x b s).lD2H = s.lD2H := rfl
@[simp] theorem setPin_termIn (x : Line) (b : Bool) (s : State) : (setPin x b s).termIn = s.termIn := rfl
@[simp] theorem setPin_termOut (x : Line) (b : Bool) (s : State) : (setPin x b s).termOut = s.termOut := rfl
@[simp] theorem setPin_log (x : Line) (b : Bool) (s : State) : (setPin x b s).log = s.log := rfl
@[simp] theorem setPin_radio (x : Line) (b : Bool) (s : State) : (setPin x b s).radio = s.radio := rfl
@[simp] theorem setPin_agenda (x : Line) (b : Bool) (s : State) : (setPin x b s).agenda = s.agenda := rfl
@[simp] theorem setPin_freeCtr (x : Line) (b : Bool) (s : State) : (setPin x b s).freeCtr = s.freeCtr := rfl

/-! `setIfg` -/

@[simp] theorem setIfg_par (x : Line) (b : Bool) (s : State) : (setIfg x b s).par = s.par := rfl
@[simp] theorem setIfg_now (x : Line) (b : Bool) (s : State) : (setIfg x b s).now = s.now := rfl
@[simp] theorem setIfg_host (x : Line) (b : Bool) (s : State) : (setIfg x b s).host = s.host := rfl
@[simp] theorem setIfg_trd (x : Line) (b : Bool) (s : State) : (setIfg x b s).dev.trd = s.dev.trd := rfl
@[simp] theorem setIfg_outq (x : Line) (b : Bool) (s : State) : (setIfg x b s).dev.outq = s.dev.outq := rfl
@[simp] theorem setIfg_parms (x : Line) (b : Bool) (s : State) : (setIfg x b s).dev.parms = s.dev.parms := rfl
@[simp] theorem setIfg_inited (x : Line) (b : Bool) (s : State) : (setIfg x b s).dev.inited = s.dev.inited := rfl
@[simp] theorem setIfg_str (x : Line) (b : Bool) (s : State) : (setIfg x b s).dev.str = s.dev.str := rfl
@[simp] theorem setIfg_pin (x : Line) (b : Bool) (s : State) : (setIfg x b s).dev.gpio.pin = s.dev.gpio.pin := rfl
@[simp] theorem setIfg_ifg (x : Line) (b : Bool) (s : State) : (setIfg x b s).dev.gpio.ifg = withBit s.dev.gpio.ifg (lineBit s.par x) b := rfl
@[simp] theorem setIfg_ie (x : Line) (b : Bool) (s : State) : (setIfg x b s).dev.gpio.ie = s.dev.gpio.ie := rfl
@[simp] theorem setIfg_ies (x : Line) (b : Bool) (s : State) : (setIfg x b s).dev.gpio.ies = s.dev.gpio.ies := rfl
@[simp] theorem setIfg_gie (x : Line) (b : Bool) (s : State) : (setIfg x b s).dev.gie = s.dev.gie := rfl
@[simp] theorem setIfg_lH2D (x : Line) (b : Bool) (s : State) : (setIfg x b s).lH2D = s.lH2D := rfl
@[simp] theorem setIfg_lD2H (x : Line) (b : Bool) (s : State) : (setIfg x b s).lD2H = s.lD2H := rfl
@[simp] theorem setIfg_termIn (x : Line) (b : Bool) (s : State) : (setIfg x b s).termIn = s.termIn := rfl
@[simp] theorem setIfg_termOut (x : Line) (b : Bool) (s : State) : (setIfg x b s).termOut = s.termOut := rfl
@[simp] theorem setIfg_log (x : Line) (b : Bool) (s : State) : (setIfg x b s).log = s.log := rfl
@[simp] theorem setIfg_radio (x : Line) (b : Bool) (s : State) : (setIfg x b s).radio = s.radio := rfl
@[simp] theorem setIfg_agenda (x : Line) (b : Bool) (s : State) : (setIfg x b s).agenda = s.agenda := rfl
@[simp] theorem setIfg_freeCtr (x : Line) (b : Bool) (s : State) : (setIfg x b s).freeCtr = s.freeCtr := rfl

/-! `setIe` -/

@[simp] theorem setIe_par (x : Line) (b : Bool) (s : State) : (setIe x b s).par = s.par := rfl
@[simp] theorem setIe_now (x : Line) (b : Bool) (s : State) : (setIe x b s).now = s.now := rfl
@[simp] theorem setIe_host (x : Line) (b : Bool) (s : State) : (setIe x b s).host = s.host := rfl
@[simp] theorem setIe_trd (x : Line) (b : Bool) (s : State) : (setIe x b s).dev.trd = s.dev.trd := rfl
@[simp] theorem setIe_outq (x : Line) (b : Bool) (s : State) : (setIe x b s).dev.outq = s.dev.outq := rfl
@[simp] theorem setIe_parms (x : Line) (b : Bool) (s : State) : (setIe x b s).dev.parms = s.dev.parms := rfl
@[simp] theorem setIe_inited (x : Line) (b : Bool) (s : State) : (setIe x b s).dev.inited = s.dev.inited := rfl
@[simp] theorem setIe_str (x : Line) (b : Bool) (s : State) : (setIe x b s).dev.str = s.dev.str := rfl
@[simp] theorem setIe_pin (x : Line) (b : Bool) (s : State) : (setIe x b s).dev.gpio.pin = s.dev.gpio.pin := rfl
@[simp] theorem setIe_ifg (x : Line) (b : Bool) (s : State) : (setIe x b s).dev.gpio.ifg = s.dev.gpio.ifg := rfl
@[simp] theorem setIe_ie (x : Line) (b : Bool) (s : State) : (setIe x b s).dev.gpio.ie = withBit s.dev.gpio.ie (lineBit s.par x) b := rfl
@[simp] theorem setIe_ies (x : Line) (b : Bool) (s : State) : (setIe x b s).dev.gpio.ies = s.dev.gpio.ies := rfl
@[simp] theorem setIe_gie (x : Line) (b : Bool) (s : State) : (setIe x b s).dev.gie = s.dev.gie := rfl
@[simp] theorem setIe_lH2D (x : Line) (b : Bool) (s : State) : (setIe x b s).lH2D = s.lH2D := rfl
@[simp] theorem setIe_lD2H (x : Line) (b : Bool) (s : State) : (setIe x b s).lD2H = s.lD2H := rfl
@[simp] theorem setIe_termIn (x : Line) (b : Bool) (s : State) : (setIe x b s).termIn = s.termIn := rfl
@[simp] theorem setIe_termOut (x : Line) (b : Bool) (s : State) : (setIe x b s).termOut = s.termOut := rfl
@[simp] theorem setIe_log (x : Line) (b : Bool) (s : State) : (setIe x b s).log = s.log := rfl
@[simp] theorem setIe_radio (x : Line) (b : Bool) (s : State) : (setIe x b s).radio = s.radio := rfl
@[simp] theorem setIe_agenda (x : Line) (b : Bool) (s : State) : (setIe x b s).agenda = s.agenda := rfl
@[simp] theorem setIe_freeCtr (x : Line) (b : Bool) (s : State) : (setIe x b s).freeCtr = s.freeCtr := rfl

/-! `setIes` -/

@[simp] theorem setIes_par (x : Line) (b : Bool) (s : State) : (setIes x b s).par = s.par := rfl
@[simp] theorem setIes_now (x : Line) (b : Bool) (s : State) : (setIes x b s).now = s.now := rfl
@[simp] theorem setIes_host (x : Line) (b : Bool) (s : State) : (setIes x b s).host = s.host := rfl
@[simp] theorem setIes_trd (x : Line) (b : Bool) (s : State) : (setIes x b s).dev.trd = s.dev.trd := rfl
@[simp] theorem setIes_outq (x : Line) (b : Bool) (s : State) : (setIes x b s).dev.outq = s.dev.outq := rfl
@[simp] theorem setIes_parms (x : Line) (b : Bool) (s : State) : (setIes x b s).dev.parms = s.dev.parms := rfl
@[simp] theorem setIes_inited (x : Line) (b : Bool) (s : State) : (setIes x b s).dev.inited = s.dev.inited := rfl
@[simp] theorem setIes_str (x : Line) (b : Bool) (s : State) : (setIes x b s).dev.str = s.dev.str := rfl
@[simp] theorem setIes_pin (x : Line) (b : Bool) (s : State) : (setIes x b s).dev.gpio.pin = s.dev.gpio.pin := rfl
@[simp] theorem setIes_ifg (x : Line) (b : Bool) (s : State) : (setIes x b s).dev.gpio.ifg = s.dev.gpio.ifg := rfl
@[simp] theorem setIes_ie (x : Line) (b : Bool) (s : State) : (setIes x b s).dev.gpio.ie = s.dev.gpio.ie := rfl
@[simp] theorem setIes_ies (x : Line) (b : Bool) (s : State) : (setIes x b s).dev.gpio.ies = withBit s.dev.gpio.ies (lineBit s.par x) b := rfl
@[simp] theorem setIes_gie (x : Line) (b : Bool) (s : State) : (setIes x b s).dev.gie = s.dev.gie := rfl
@[simp] theorem setIes_lH2D (x : Line) (b : Bool) (s : State) : (setIes x b s).lH2D = s.lH2D := rfl
@[simp] theorem setIes_lD2H (x : Line) (b : Bool) (s : State) : (setIes x b s).lD2H = s.lD2H := rfl
@[simp] theorem setIes_termIn (x : Line) (b : Bool) (s : State) : (setIes x b s).termIn = s.termIn := rfl
@[simp] theorem setIes_termOut (x : Line) (b : Bool) (s : State) : (setIes x b s).termOut = s.termOut := rfl
@[simp] theorem setIes_log (x : Line) (b : Bool) (s : State) : (setIes x b s).log = s.log := rfl
@[simp] theorem setIes_radio (x : Line) (b : Bool) (s : State) : (setIes x b s).radio = s.radio := rfl
@[simp] theorem setIes_agenda (x : Line) (b : Bool) (s : State) : (setIes x b s).agenda = s.agenda := rfl
@[simp] theorem setIes_freeCtr (x : Line) (b : Bool) (s : State) : (setIes x b s).freeCtr = s.freeCtr := rfl

/-! `logEvent` -/

@[simp] theorem logEvent_par (e : LogEvent) (s : State) : (logEvent e s).par = s.par := rfl
@[simp] theorem logEvent_now (e : LogEvent) (s : State) : (logEvent e s).now = s.now := rfl
@[simp] theorem logEvent_host (e : LogEvent) (s : State) : (logEvent e s).host = s.host := rfl
@[simp] theorem logEvent_dev (e : LogEvent) (s : State) : (logEvent e s).dev = s.dev := rfl
@[simp] theorem logEvent_lH2D (e : LogEvent) (s : State) : (logEvent e s).lH2D = s.lH2D := rfl
@[simp] theorem logEvent_lD2H (e : LogEvent) (s : State) : (logEvent e s).lD2H = s.lD2H := rfl
@[simp] theorem logEvent_termIn (e : LogEvent) (s : State) : (logEvent e s).termIn = s.termIn := rfl
@[simp] theorem logEvent_termOut (e : LogEvent) (s : State) : (logEvent e s).termOut = s.termOut := rfl
@[simp] theorem logEvent_log (e : LogEvent) (s : State) : (logEvent e s).log = s.log ++ [e] := rfl
@[simp] theorem logEvent_radio (e : LogEvent) (s : State) : (logEvent e s).radio = s.radio := rfl
@[simp] theorem logEvent_agenda (e : LogEvent) (s : State) : (logEvent e s).agenda = s.agenda := rfl
@[simp] theorem logEvent_freeCtr (e : LogEvent) (s : State) : (logEvent e s).freeCtr = s.freeCtr := rfl

/-! `setRes` -/

@[simp] theorem setRes_par (r : Result) (s : State) : (setRes r s).par = s.par := rfl
@[simp] theorem setRes_now (r : Result) (s : State) : (setRes r s).now = s.now := rfl
@[simp] theorem setRes_sch (r : Result) (s : State) : (setRes r s).host.sch = s.host.sch := rfl
@[simp] theorem setRes_tnc (r : Result) (s : State) : (setRes r s).host.tnc = s.host.tnc := rfl
@[simp] theorem setRes_cfg (r : Result) (s : State) : (setRes r s).host.cfg = s.host.cfg := rfl
@[simp] theorem setRes_trh (r : Result) (s : State) : (setRes r s).host.trh = s.host.trh := rfl
@[simp] theorem setRes_seg (r : Result) (s : State) : (setRes r s).host.seg = s.host.seg := rfl
@[simp] theorem setRes_kiss (r : Result) (s : State) : (setRes r s).host.kiss = s.host.kiss := rfl
@[simp] theorem setRes_ctl (r : Result) (s : State) : (setRes r s).host.ctl = s.host.ctl := rfl
@[simp] theorem setRes_res (r : Result) (s : State) : (setRes r s).host.res = r := rfl
@[simp] theorem setRes_dev (r : Result) (s : State) : (setRes r s).dev = s.dev := rfl
@[simp] theorem setRes_lH2D (r : Result) (s : State) : (setRes r s).lH2D = s.lH2D := rfl
@[simp] theorem setRes_lD2H (r : Result) (s : State) : (setRes r s).lD2H = s.lD2H := rfl
@[simp] theorem setRes_termIn (r : Result) (s : State) : (setRes r s).termIn = s.termIn := rfl
@[simp] theorem setRes_termOut (r : Result) (s : State) : (setRes r s).termOut = s.termOut := rfl
@[simp] theorem setRes_log (r : Result) (s : State) : (setRes r s).log = s.log := rfl
@[simp] theorem setRes_radio (r : Result) (s : State) : (setRes r s).radio = s.radio := rfl
@[simp] theorem setRes_agenda (r : Result) (s : State) : (setRes r s).agenda = s.agenda := rfl
@[simp] theorem setRes_freeCtr (r : Result) (s : State) : (setRes r s).freeCtr = s.freeCtr := rfl

/-! `pushTasks` -/

@[simp] theorem pushTasks_par (ts : List Task) (s : State) : (pushTasks ts s).par = s.par := rfl
@[simp] theorem pushTasks_now (ts : List Task) (s : State) : (pushTasks ts s).now = s.now := rfl
@[simp] theorem pushTasks_sch (ts : List Task) (s : State) : (pushTasks ts s).host.sch = s.host.sch := rfl
@[simp] theorem pushTasks_tnc (ts : List Task) (s : State) : (pushTasks ts s).host.tnc = s.host.tnc := rfl
@[simp] theorem pushTasks_cfg (ts : List Task) (s : State) : (pushTasks ts s).host.cfg = s.host.cfg := rfl
@[simp] theorem pushTasks_trh (ts : List Task) (s : State) : (pushTasks ts s).host.trh = s.host.trh := rfl
@[simp] theorem pushTasks_seg (ts : List Task) (s : State) : (pushTasks ts s).host.seg = s.host.seg := rfl
@[simp] theorem pushTasks_kiss (ts : List Task) (s : State) : (pushTasks ts s).host.kiss = s.host.kiss := rfl
@[simp] theorem pushTasks_ctl (ts : List Task) (s : State) : (pushTasks ts s).host.ctl = ts ++ s.host.ctl := rfl
@[simp] theorem pushTasks_res (ts : List Task) (s : State) : (pushTasks ts s).host.res = s.host.res := rfl
@[simp] theorem pushTasks_dev (ts : List Task) (s : State) : (pushTasks ts s).dev = s.dev := rfl
@[simp] theorem pushTasks_lH2D (ts : List Task) (s : State) : (pushTasks ts s).lH2D = s.lH2D := rfl
@[simp] theorem pushTasks_lD2H (ts : List Task) (s : State) : (pushTasks ts s).lD2H = s.lD2H := rfl
@[simp] theorem pushTasks_termIn (ts : List Task) (s : State) : (pushTasks ts s).termIn = s.termIn := rfl
@[simp] theorem pushTasks_termOut (ts : List Task) (s : State) : (pushTasks ts s).termOut = s.termOut := rfl
@[simp] theorem pushTasks_log (ts : List Task) (s : State) : (pushTasks ts s).log = s.log := rfl
@[simp] theorem pushTasks_radio (ts : List Task) (s : State) : (pushTasks ts s).radio = s.radio := rfl
@[simp] theorem pushTasks_agenda (ts : List Task) (s : State) : (pushTasks ts s).agenda = s.agenda := rfl
@[simp] theorem pushTasks_freeCtr (ts : List Task) (s : State) : (pushTasks ts s).freeCtr = s.freeCtr := rfl

/-! `setCtl` -/

@[simp] theorem setCtl_par (k : List Task) (s : State) : (setCtl k s).par = s.par := rfl
@[simp] theorem setCtl_now (k : List Task) (s : State) : (setCtl k s).now = s.now := rfl
@[simp] theorem setCtl_sch (k : List Task) (s : State) : (setCtl k s).host.sch = s.host.sch := rfl
@[simp] theorem setCtl_tnc (k : List Task) (s : State) : (setCtl k s).host.tnc = s.host.tnc := rfl
@[simp] theorem setCtl_cfg (k : List Task) (s : State) : (setCtl k s).host.cfg = s.host.cfg := rfl
@[simp] theorem setCtl_trh (k : List Task) (s : State) : (setCtl k s).host.trh = s.host.trh := rfl
@[simp] theorem setCtl_seg (k : List Task) (s : State) : (setCtl k s).host.seg = s.host.seg := rfl
@[simp] theorem setCtl_kiss (k : List Task) (s : State) : (setCtl k s).host.kiss = s.host.kiss := rfl
@[simp] theorem setCtl_ctl (k : List Task) (s : State) : (setCtl k s).host.ctl = k := rfl
@[simp] theorem setCtl_res (k : List Task) (s : State) : (setCtl k s).host.res = s.host.res := rfl
@[simp] theorem setCtl_dev (k : List Task) (s : State) : (setCtl k s).dev = s.dev := rfl
@[simp] theorem setCtl_lH2D (k : List Task) (s : State) : (setCtl k s).lH2D = s.lH2D := rfl
@[simp] theorem setCtl_lD2H (k : List Task) (s : State) : (setCtl k s).lD2H = s.lD2H := rfl
@[simp] theorem setCtl_termIn (k : List Task) (s : State) : (setCtl k s).termIn = s.termIn := rfl
@[simp] theorem setCtl_termOut (k : List Task) (s : State) : (setCtl k s).termOut = s.termOut := rfl
@[simp] theorem setCtl_log (k : List Task) (s : State) : (setCtl k s).log = s.log := rfl
@[simp] theorem setCtl_radio (k : List Task) (s : State) : (setCtl k s).radio = s.radio := rfl
@[simp] theorem setCtl_agenda (k : List Task) (s : State) : (setCtl k s).agenda = s.agenda := rfl
@[simp] theorem setCtl_freeCtr (k : List Task) (s : State) : (setCtl k s).freeCtr = s.freeCtr := rfl

/-! `putH2D` -/

@[simp] theorem putH2D_par (b : Bytes) (s : State) : (putH2D b s).par = s.par := rfl
@[simp] theorem putH2D_now (b : Bytes) (s : State) : (putH2D b s).now = s.now := rfl
@[simp] theorem putH2D_host (b : Bytes) (s : State) : (putH2D b s).host = s.host := rfl
@[simp] theorem putH2D_dev (b : Bytes) (s : State) : (putH2D b s).dev = s.dev := rfl
@[simp] theorem putH2D_lH2D (b : Bytes) (s : State) : (putH2D b s).lH2D = chanPut s.lH2D b := rfl
@[simp] theorem putH2D_lD2H (b : Bytes) (s : State) : (putH2D b s).lD2H = s.lD2H := rfl
@[simp] theorem putH2D_termIn (b : Bytes) (s : State) : (putH2D b s).termIn = s.termIn := rfl
@[simp] theorem putH2D_termOut (b : Bytes) (s : State) : (putH2D b s).termOut = s.termOut := rfl
@[simp] theorem putH2D_log (b : Bytes) (s : State) : (putH2D b s).log = s.log := rfl
@[simp] theorem putH2D_radio (b : Bytes) (s : State) : (putH2D b s).radio = s.radio := rfl
@[simp] theorem putH2D_agenda (b : Bytes) (s : State) : (putH2D b s).agenda = s.agenda := rfl
@[simp] theorem putH2D_freeCtr (b : Bytes) (s : State) : (putH2D b s).freeCtr = s.freeCtr := rfl

/-! `putD2H` -/

@[simp] theorem putD2H_par (b : Bytes) (s : State) : (putD2H b s).par = s.par := rfl
@[simp] theorem putD2H_now (b : Bytes) (s : State) : (putD2H b s).now = s.now := rfl
@[simp] theorem putD2H_host (b : Bytes) (s : State) : (putD2H b s).host = s.host := rfl
@[simp] theorem putD2H_dev (b : Bytes) (s : State) : (putD2H b s).dev = s.dev := rfl
@[simp] theorem putD2H_lH2D (b : Bytes) (s : State) : (putD2H b s).lH2D = s.lH2D := rfl
@[simp] theorem putD2H_lD2H (b : Bytes) (s : State) : (putD2H b s).lD2H = chanPut s.lD2H b := rfl
@[simp] theorem putD2H_termIn (b : Bytes) (s : State) : (putD2H b s).termIn = s.termIn := rfl
@[simp] theorem putD2H_termOut (b : Bytes) (s : State) : (putD2H b s).termOut = s.termOut := rfl
@[simp] theorem putD2H_log (b : Bytes) (s : State) : (putD2H b s).log = s.log := rfl
@[simp] theorem putD2H_radio (b : Bytes) (s : State) : (putD2H b s).radio = s.radio := rfl
@[simp] theorem putD2H_agenda (b : Bytes) (s : State) : (putD2H b s).agenda = s.agenda := rfl
@[simp] theorem putD2H_freeCtr (b : Bytes) (s : State) : (putD2H b s).freeCtr = s.freeCtr := rfl

/-! `countFree` -/

@[simp] theorem countFree_par (s : State) : (countFree s).par = s.par := rfl
@[simp] theorem countFree_now (s : State) : (countFree s).now = s.now := rfl
@[simp] theorem countFree_host (s : State) : (countFree s).host = s.host := rfl
@[simp] theorem countFree_dev (s : State) : (countFree s).dev = s.dev := rfl
@[simp] theorem countFree_lH2D (s : State) : (countFree s).lH2D = s.lH2D := rfl
@[simp] theorem countFree_lD2H (s : State) : (countFree s).lD2H = s.lD2H := rfl
@[simp] theorem countFree_termIn (s : State) : (countFree s).termIn = s.termIn := rfl
@[simp] theorem countFree_termOut (s : State) : (countFree s).termOut = s.termOut := rfl
@[simp] theorem countFree_log (s : State) : (countFree s).log = s.log := rfl
@[simp] theorem countFree_radio (s : State) : (countFree s).radio = s.radio := rfl
@[simp] theorem countFree_agenda (s : State) : (countFree s).agenda = s.agenda := rfl
@[simp] theorem countFree_freeCtr (s : State) : (countFree s).freeCtr = s.freeCtr + 1 := rfl

/-! `radioConfigure` -/

@[simp] theorem radioConfigure_par (p : Bytes) (s : State) : (radioConfigure p s).par = s.par := rfl
@[simp] theorem radioConfigure_now (p : Bytes) (s : State) : (radioConfigure p s).now = s.now := rfl
@[simp] theorem radioConfigure_host (p : Bytes) (s : State) : (radioConfigure p s).host = s.host := rfl
@[simp] theorem radioConfigure_dev (p : Bytes) (s : State) : (radioConfigure p s).dev = s.dev := rfl
@[simp] theorem radioConfigure_lH2D (p : Bytes) (s : State) : (radioConfigure p s).lH2D = s.lH2D := rfl
@[simp] theorem radioConfigure_lD2H (p : Bytes) (s : State) : (radioConfigure p s).lD2H = s.lD2H := rfl
@[simp] theorem radioConfigure_termIn (p : Bytes) (s : State) : (radioConfigure p s).termIn = s.termIn := rfl
@[simp] theorem radioConfigure_termOut (p : Bytes) (s : State) : (radioConfigure p s).termOut = s.termOut := rfl
@[simp] theorem radioConfigure_log (p : Bytes) (s : State) : (radioConfigure p s).log = s.log := rfl
@[simp] theorem radioConfigure_radio (p : Bytes) (s : State) : (radioConfigure p s).radio = { s.radio with config := p } := rfl
@[simp] theorem radioConfigure_agenda (p : Bytes) (s : State) : (radioConfigure p s).agenda = s.agenda := rfl
@[simp] theorem radioConfigure_freeCtr (p : Bytes) (s : State) : (radioConfigure p s).freeCtr = s.freeCtr := rfl

/-! `setMode` -/

@[simp] theorem setMode_par (m : Mode) (s : State) : (setMode m s).par = s.par := rfl
@[simp] theorem setMode_now (m : Mode) (s : State) : (setMode m s).now = s.now := rfl
@[simp] theorem setMode_host (m : Mode) (s : State) : (setMode m s).host = s.host := rfl
@[simp] theorem setMode_trd (m : Mode) (s : State) : (setMode m s).dev.trd = s.dev.trd := rfl
@[simp] theorem setMode_outq (m : Mode) (s : State) : (setMode m s).dev.outq = s.dev.outq := rfl
@[simp] theorem setMode_parms (m : Mode) (s : State) : (setMode m s).dev.parms = s.dev.parms := rfl
@[simp] theorem setMode_inited (m : Mode) (s : State) : (setMode m s).dev.inited = s.dev.inited := rfl
@[simp] theorem setMode_mode (m : Mode) (s : State) : (setMode m s).dev.str.mode = m := rfl
@[simp] theorem setMode_cntPktRise (m : Mode) (s : State) : (setMode m s).dev.str.cntPktRise = s.dev.str.cntPktRise := rfl
@[simp] theorem setMode_cntPktFall (m : Mode) (s : State) : (setMode m s).dev.str.cntPktFall = s.dev.str.cntPktFall := rfl
@[simp] theorem setMode_cntThrRise (m : Mode) (s : State) : (setMode m s).dev.str.cntThrRise = s.dev.str.cntThrRise := rfl
@[simp] theorem setMode_cntThrFall (m : Mode) (s : State) : (setMode m s).dev.str.cntThrFall = s.dev.str.cntThrFall := rfl
@[simp] theorem setMode_txbuf (m : Mode) (s : State) : (setMode m s).dev.str.txbuf = s.dev.str.txbuf := rfl
@[simp] theorem setMode_txlen (m : Mode) (s : State) : (setMode m s).dev.str.txlen = s.dev.str.txlen := rfl
@[simp] theorem setMode_txpos (m : Mode) (s : State) : (setMode m s).dev.str.txpos = s.dev.str.txpos := rfl
@[simp] theorem setMode_rxbuf (m : Mode) (s : State) : (setMode m s).dev.str.rxbuf = s.dev.str.rxbuf := rfl
@[simp] theorem setMode_rxlen (m : Mode) (s : State) : (setMode m s).dev.str.rxlen = s.dev.str.rxlen := rfl
@[simp] theorem setMode_gpio (m : Mode) (s : State) : (setMode m s).dev.gpio = s.dev.gpio := rfl
@[simp] theorem setMode_gie (m : Mode) (s : State) : (setMode m s).dev.gie = s.dev.gie := rfl
@[simp] theorem setMode_lH2D (m : Mode) (s : State) : (setMode m s).lH2D = s.lH2D := rfl
@[simp] theorem setMode_lD2H (m : Mode) (s : State) : (setMode m s).lD2H = s.lD2H := rfl
@[simp] theorem setMode_termIn (m : Mode) (s : State) : (setMode m s).termIn = s.termIn := rfl
@[simp] theorem setMode_termOut (m : Mode) (s : State) : (setMode m s).termOut = s.termOut := rfl
@[simp] theorem setMode_log (m : Mode) (s : State) : (setMode m s).log = s.log := rfl
@[simp] theorem setMode_radio (m : Mode) (s : State) : (setMode m s).radio = s.radio := rfl
@[simp] theorem setMode_agenda (m : Mode) (s : State) : (setMode m s).agenda = s.agenda := rfl
@[simp] theorem setMode_freeCtr (m : Mode) (s : State) : (setMode m s).freeCtr = s.freeCtr := rfl

/-! `zeroCounters` -/

@[simp] theorem zeroCounters_par (s : State) : (zeroCounters s).par = s.par := rfl
@[simp] theorem zeroCounters_now (s : State) : (zeroCounters s).now = s.now := rfl
@[simp] theorem zeroCounters_host (s : State) : (zeroCounters s).host = s.host := rfl
@[simp] theorem zeroCounters_trd (s : State) : (zeroCounters s).dev.trd = s.dev.trd := rfl
@[simp] theorem zeroCounters_outq (s : State) : (zeroCounters s).dev.outq = s.dev.outq := rfl
@[simp] theorem zeroCounters_parms (s : State) : (zeroCounters s).dev.parms = s.dev.parms := rfl
@[simp] theorem zeroCounters_inited (s : State) : (zeroCounters s).dev.inited = s.dev.inited := rfl
@[simp] theorem zeroCounters_mode (s : State) : (zeroCounters s).dev.str.mode = s.dev.str.mode := rfl
@[simp] theorem zeroCounters_cntPktRise (s : State) : (zeroCounters s).dev.str.cntPktRise = 0 := rfl
@[simp] theorem zeroCounters_cntPktFall (s : State) : (zeroCounters s).dev.str.cntPktFall = 0 := rfl
@[simp] theorem zeroCounters_cntThrRise (s : State) : (zeroCounters s).dev.str.cntThrRise = 0 := rfl
@[simp] theorem zeroCounters_cntThrFall (s : State) : (zeroCounters s).dev.str.cntThrFall = 0 := rfl
@[simp] theorem zeroCounters_txbuf (s : State) : (zeroCounters s).dev.str.txbuf = s.dev.str.txbuf := rfl
@[simp] theorem zeroCounters_txlen (s : State) : (zeroCounters s).dev.str.txlen = s.dev.str.txlen := rfl
@[simp] theorem zeroCounters_txpos (s : State) : (zeroCounters s).dev.str.txpos = s.dev.str.txpos := rfl
@[simp] theorem zeroCounters_rxbuf (s : State) : (zeroCounters s).dev.str.rxbuf = s.dev.str.rxbuf := rfl
@[simp] theorem zeroCounters_rxlen (s : State) : (zeroCounters s).dev.str.rxlen = s.dev.str.rxlen := rfl
@[simp] theorem zeroCounters_gpio (s : State) : (zeroCounters s).dev.gpio = s.dev.gpio := rfl
@[simp] theorem zeroCounters_gie (s : State) : (zeroCounters s).dev.gie = s.dev.gie := rfl
@[simp] theorem zeroCounters_lH2D (s : State) : (zeroCounters s).lH2D = s.lH2D := rfl
@[simp] theorem zeroCounters_lD2H (s : State) : (zeroCounters s).lD2H = s.lD2H := rfl
@[simp] theorem zeroCounters_termIn (s : State) : (zeroCounters s).termIn = s.termIn := rfl
@[simp] theorem zeroCounters_termOut (s : State) : (zeroCounters s).termOut = s.termOut := rfl
@[simp] theorem zeroCounters_log (s : State) : (zeroCounters s).log = s.log := rfl
@[simp] theorem zeroCounters_radio (s : State) : (zeroCounters s).radio = s.radio := rfl
@[simp] theorem zeroCounters_agenda (s : State) : (zeroCounters s).agenda = s.agenda := rfl
@[simp] theorem zeroCounters_freeCtr (s : State) : (zeroCounters s).freeCtr = s.freeCtr := rfl

/-! `setTxBuf` -/

@[simp] theorem setTxBuf_par (p : Bytes) (s : State) : (setTxBuf p s).par = s.par := rfl
@[simp] theorem setTxBuf_now (p : Bytes) (s : State) : (setTxBuf p s).now = s.now := rfl
@[simp] theorem setTxBuf_host (p : Bytes) (s : State) : (setTxBuf p s).host = s.host := rfl
@[simp] theorem setTxBuf_trd (p : Bytes) (s : State) : (setTxBuf p s).dev.trd = s.dev.trd := rfl
@[simp] theorem setTxBuf_outq (p : Bytes) (s : State) : (setTxBuf p s).dev.outq = s.dev.outq := rfl
@[simp] theorem setTxBuf_parms (p : Bytes) (s : State) : (setTxBuf p s).dev.parms = s.dev.parms := rfl
@[simp] theorem setTxBuf_inited (p : Bytes) (s : State) : (setTxBuf p s).dev.inited = s.dev.inited := rfl
@[simp] theorem setTxBuf_mode (p : Bytes) (s : State) : (setTxBuf p s).dev.str.mode = s.dev.str.mode := rfl
@[simp] theorem setTxBuf_cntPktRise (p : Bytes) (s : State) : (setTxBuf p s).dev.str.cntPktRise = s.dev.str.cntPktRise := rfl
@[simp] theorem setTxBuf_cntPktFall (p : Bytes) (s : State) : (setTxBuf p s).dev.str.cntPktFall = s.dev.str.cntPktFall := rfl
@[simp] theorem setTxBuf_cntThrRise (p : Bytes) (s : State) : (setTxBuf p s).dev.str.cntThrRise = s.dev.str.cntThrRise := rfl
@[simp] theorem setTxBuf_cntThrFall (p : Bytes) (s : State) : (setTxBuf p s).dev.str.cntThrFall = s.dev.str.cntThrFall := rfl
@[simp] theorem setTxBuf_txbuf (p : Bytes) (s : State) : (setTxBuf p s).dev.str.txbuf = p := rfl
@[simp] theorem setTxBuf_txlen (p : Bytes) (s : State) : (setTxBuf p s).dev.str.txlen = p.length := rfl
@[simp] theorem setTxBuf_txpos (p : Bytes) (s : State) : (setTxBuf p s).dev.str.txpos = s.dev.str.txpos := rfl
@[simp] theorem setTxBuf_rxbuf (p : Bytes) (s : State) : (setTxBuf p s).dev.str.rxbuf = s.dev.str.rxbuf := rfl
@[simp] theorem setTxBuf_rxlen (p : Bytes) (s : State) : (setTxBuf p s).dev.str.rxlen = s.dev.str.rxlen := rfl
@[simp] theorem setTxBuf_gpio (p : Bytes) (s : State) : (setTxBuf p s).dev.gpio = s.dev.gpio := rfl
@[simp] theorem setTxBuf_gie (p : Bytes) (s : State) : (setTxBuf p s).dev.gie = s.dev.gie := rfl
@[simp] theorem setTxBuf_lH2D (p : Bytes) (s : State) : (setTxBuf p s).lH2D = s.lH2D := rfl
@[simp] theorem setTxBuf_lD2H (p : Bytes) (s : State) : (setTxBuf p s).lD2H = s.lD2H := rfl
@[simp] theorem setTxBuf_termIn (p : Bytes) (s : State) : (setTxBuf p s).termIn = s.termIn := rfl
@[simp] theorem setTxBuf_termOut (p : Bytes) (s : State) : (setTxBuf p s).termOut = s.termOut := rfl
@[simp] theorem setTxBuf_log (p : Bytes) (s : State) : (setTxBuf p s).log = s.log := rfl
@[simp] theorem setTxBuf_radio (p : Bytes) (s : State) : (setTxBuf p s).radio = s.radio := rfl
@[simp] theorem setTxBuf_agenda (p : Bytes) (s : State) : (setTxBuf p s).agenda = s.agenda := rfl
@[simp] theorem setTxBuf_freeCtr (p : Bytes) (s : State) : (setTxBuf p s).freeCtr = s.freeCtr := rfl

/-! `setTxPos` -/

@[simp] theorem setTxPos_par (n : Nat) (s : State) : (setTxPos n s).par = s.par := rfl
@[simp] theorem setTxPos_now (n : Nat) (s : State) : (setTxPos n s).now = s.now := rfl
@[simp] theorem setTxPos_host (n : Nat) (s : State) : (setTxPos n s).host = s.host := rfl
@[simp] theorem setTxPos_trd (n : Nat) (s : State) : (setTxPos n s).dev.trd = s.dev.trd := rfl
@[simp] theorem setTxPos_outq (n : Nat) (s : State) : (setTxPos n s).dev.outq = s.dev.outq := rfl
@[simp] theorem setTxPos_parms (n : Nat) (s : State) : (setTxPos n s).dev.parms = s.dev.parms := rfl
@[simp] theorem setTxPos_inited (n : Nat) (s : State) : (setTxPos n s).dev.inited = s.dev.inited := rfl
@[simp] theorem setTxPos_mode (n : Nat) (s : State) : (setTxPos n s).dev.str.mode = s.dev.str.mode := rfl
@[simp] theorem setTxPos_cntPktRise (n : Nat) (s : State) : (setTxPos n s).dev.str.cntPktRise = s.dev.str.cntPktRise := rfl
@[simp] theorem setTxPos_cntPktFall (n : Nat) (s : State) : (setTxPos n s).dev.str.cntPktFall = s.dev.str.cntPktFall := rfl
@[simp] theorem setTxPos_cntThrRise (n : Nat) (s : State) : (setTxPos n s).dev.str.cntThrRise = s.dev.str.cntThrRise := rfl
@[simp] theorem setTxPos_cntThrFall (n : Nat) (s : State) : (setTxPos n s).dev.str.cntThrFall = s.dev.str.cntThrFall := rfl
@[simp] theorem setTxPos_txbuf (n : Nat) (s : State) : (setTxPos n s).dev.str.txbuf = s.dev.str.txbuf := rfl
@[simp] theorem setTxPos_txlen (n : Nat) (s : State) : (setTxPos n s).dev.str.txlen = s.dev.str.txlen := rfl
@[simp] theorem setTxPos_txpos (n : Nat) (s : State) : (setTxPos n s).dev.str.txpos = n := rfl
@[simp] theorem setTxPos_rxbuf (n : Nat) (s : State) : (setTxPos n s).dev.str.rxbuf = s.dev.str.rxbuf := rfl
@[simp] theorem setTxPos_rxlen (n : Nat) (s : State) : (setTxPos n s).dev.str.rxlen = s.dev.str.rxlen := rfl
@[simp] theorem setTxPos_gpio (n : Nat) (s : State) : (setTxPos n s).dev.gpio = s.dev.gpio := rfl
@[simp] theorem setTxPos_gie (n : Nat) (s : State) : (setTxPos n s).dev.gie = s.dev.gie := rfl
@[simp] theorem setTxPos_lH2D (n : Nat) (s : State) : (setTxPos n s).lH2D = s.lH2D := rfl
@[simp] theorem setTxPos_lD2H (n : Nat) (s : State) : (setTxPos n s).lD2H = s.lD2H := rfl
@[simp] theorem setTxPos_termIn (n : Nat) (s : State) : (setTxPos n s).termIn = s.termIn := rfl
@[simp] theorem setTxPos_termOut (n : Nat) (s : State) : (setTxPos n s).termOut = s.termOut := rfl
@[simp] theorem setTxPos_log (n : Nat) (s : State) : (setTxPos n s).log = s.log := rfl
@[simp] theorem setTxPos_radio (n : Nat) (s : State) : (setTxPos n s).radio = s.radio := rfl
@[simp] theorem setTxPos_agenda (n : Nat) (s : State) : (setTxPos n s).agenda = s.agenda := rfl
@[simp] theorem setTxPos_freeCtr (n : Nat) (s : State) : (setTxPos n s).freeCtr = s.freeCtr := rfl

/-! `setRxLen` -/

@[simp] theorem setRxLen_par (b : Byte) (s : State) : (setRxLen b s).par = s.par := rfl
@[simp] theorem setRxLen_now (b : Byte) (s : State) : (setRxLen b s).now = s.now := rfl
@[simp] theorem setRxLen_host (b : Byte) (s : State) : (setRxLen b s).host = s.host := rfl
@[simp] theorem setRxLen_trd (b : Byte) (s : State) : (setRxLen b s).dev.trd = s.dev.trd := rfl
@[simp] theorem setRxLen_outq (b : Byte) (s : State) : (setRxLen b s).dev.outq = s.dev.outq := rfl
@[simp] theorem setRxLen_parms (b : Byte) (s : State) : (setRxLen b s).dev.parms = s.dev.parms := rfl
@[simp] theorem setRxLen_inited (b : Byte) (s : State) : (setRxLen b s).dev.inited = s.dev.inited := rfl
@[simp] theorem setRxLen_mode (b : Byte) (s : State) : (setRxLen b s).dev.str.mode = s.dev.str.mode := rfl
@[simp] theorem setRxLen_cntPktRise (b : Byte) (s : State) : (setRxLen b s).dev.str.cntPktRise = s.dev.str.cntPktRise := rfl
@[simp] theorem setRxLen_cntPktFall (b : Byte) (s : State) : (setRxLen b s).dev.str.cntPktFall = s.dev.str.cntPktFall := rfl
@[simp] theorem setRxLen_cntThrRise (b : Byte) (s : State) : (setRxLen b s).dev.str.cntThrRise = s.dev.str.cntThrRise := rfl
@[simp] theorem setRxLen_cntThrFall (b : Byte) (s : State) : (setRxLen b s).dev.str.cntThrFall = s.dev.str.cntThrFall := rfl
@[simp] theorem setRxLen_txbuf (b : Byte) (s : State) : (setRxLen b s).dev.str.txbuf = s.dev.str.txbuf := rfl
@[simp] theorem setRxLen_txlen (b : Byte) (s : State) : (setRxLen b s).dev.str.txlen = s.dev.str.txlen := rfl
@[simp] theorem setRxLen_txpos (b : Byte) (s : State) : (setRxLen b s).dev.str.txpos = s.dev.str.txpos := rfl
@[simp] theorem setRxLen_rxbuf (b : Byte) (s : State) : (setRxLen b s).dev.str.rxbuf = [] := rfl
@[simp] theorem setRxLen_rxlen (b : Byte) (s : State) : (setRxLen b s).dev.str.rxlen = b := rfl
@[simp] theorem setRxLen_gpio (b : Byte) (s : State) : (setRxLen b s).dev.gpio = s.dev.gpio := rfl
@[simp] theorem setRxLen_gie (b : Byte) (s : State) : (setRxLen b s).dev.gie = s.dev.gie := rfl
@[simp] theorem setRxLen_lH2D (b : Byte) (s : State) : (setRxLen b s).lH2D = s.lH2D := rfl
@[simp] theorem setRxLen_lD2H (b : Byte) (s : State) : (setRxLen b s).lD2H = s.lD2H := rfl
@[simp] theorem setRxLen_termIn (b : Byte) (s : State) : (setRxLen b s).termIn = s.termIn := rfl
@[simp] theorem setRxLen_termOut (b : Byte) (s : State) : (setRxLen b s).termOut = s.termOut := rfl
@[simp] theorem setRxLen_log (b : Byte) (s : State) : (setRxLen b s).log = s.log := rfl
@[simp] theorem setRxLen_radio (b : Byte) (s : State) : (setRxLen b s).radio = s.radio := rfl
@[simp] theorem setRxLen_agenda (b : Byte) (s : State) : (setRxLen b s).agenda = s.agenda := rfl
@[simp] theorem setRxLen_freeCtr (b : Byte) (s : State) : (setRxLen b s).freeCtr = s.freeCtr := rfl

/-! `appendRxBuf` -/

@[simp] theorem appendRxBuf_par (b : Bytes) (s : State) : (appendRxBuf b s).par = s.par := rfl
@[simp] theorem appendRxBuf_now (b : Bytes) (s : State) : (appendRxBuf b s).now = s.now := rfl
@[simp] theorem appendRxBuf_host (b : Bytes) (s : State) : (appendRxBuf b s).host = s.host := rfl
@[simp] theorem appendRxBuf_trd (b : Bytes) (s : State) : (appendRxBuf b s).dev.trd = s.dev.trd := rfl
@[simp] theorem appendRxBuf_outq (b : Bytes) (s : State) : (appendRxBuf b s).dev.outq = s.dev.outq := rfl
@[simp] theorem appendRxBuf_parms (b : Bytes) (s : State) : (appendRxBuf b s).dev.parms = s.dev.parms := rfl
@[simp] theorem appendRxBuf_inited (b : Bytes) (s : State) : (appendRxBuf b s).dev.inited = s.dev.inited := rfl
@[simp] theorem appendRxBuf_mode (b : Bytes) (s : State) : (appendRxBuf b s).dev.str.mode = s.dev.str.mode := rfl
@[simp] theorem appendRxBuf_cntPktRise (b : Bytes) (s : State) : (appendRxBuf b s).dev.str.cntPktRise = s.dev.str.cntPktRise := rfl
@[simp] theorem appendRxBuf_cntPktFall (b : Bytes) (s : State) : (appendRxBuf b s).dev.str.cntPktFall = s.dev.str.cntPktFall := rfl
@[simp] theorem appendRxBuf_cntThrRise (b : Bytes) (s : State) : (appendRxBuf b s).dev.str.cntThrRise = s.dev.str.cntThrRise := rfl
@[simp] theorem appendRxBuf_cntThrFall (b : Bytes) (s : State) : (appendRxBuf b s).dev.str.cntThrFall = s.dev.str.cntThrFall := rfl
@[simp] theorem appendRxBuf_txbuf (b : Bytes) (s : State) : (appendRxBuf b s).dev.str.txbuf = s.dev.str.txbuf := rfl
@[simp] theorem appendRxBuf_txlen (b : Bytes) (s : State) : (appendRxBuf b s).dev.str.txlen = s.dev.str.txlen := rfl
@[simp] theorem appendRxBuf_txpos (b : Bytes) (s : State) : (appendRxBuf b s).dev.str.txpos = s.dev.str.txpos := rfl
@[simp] theorem appendRxBuf_rxbuf (b : Bytes) (s : State) : (appendRxBuf b s).dev.str.rxbuf = s.dev.str.rxbuf ++ b := rfl
@[simp] theorem appendRxBuf_rxlen (b : Bytes) (s : State) : (appendRxBuf b s).dev.str.rxlen = s.dev.str.rxlen := rfl
@[simp] theorem appendRxBuf_gpio (b : Bytes) (s : State) : (appendRxBuf b s).dev.gpio = s.dev.gpio := rfl
@[simp] theorem appendRxBuf_gie (b : Bytes) (s : State) : (appendRxBuf b s).dev.gie = s.dev.gie := rfl
@[simp] theorem appendRxBuf_lH2D (b : Bytes) (s : State) : (appendRxBuf b s).lH2D = s.lH2D := rfl
@[simp] theorem appendRxBuf_lD2H (b : Bytes) (s : State) : (appendRxBuf b s).lD2H = s.lD2H := rfl
@[simp] theorem appendRxBuf_termIn (b : Bytes) (s : State) : (appendRxBuf b s).termIn = s.termIn := rfl
@[simp] theorem appendRxBuf_termOut (b : Bytes) (s : State) : (appendRxBuf b s).termOut = s.termOut := rfl
@[simp] theorem appendRxBuf_log (b : Bytes) (s : State) : (appendRxBuf b s).log = s.log := rfl
@[simp] theorem appendRxBuf_radio (b : Bytes) (s : State) : (appendRxBuf b s).radio = s.radio := rfl
@[simp] theorem appendRxBuf_agenda (b : Bytes) (s : State) : (appendRxBuf b s).agenda = s.agenda := rfl
@[simp] theorem appendRxBuf_freeCtr (b : Bytes) (s : State) : (appendRxBuf b s).freeCtr = s.freeCtr := rfl

/-! `bumpPktRise` -/

@[simp] theorem bumpPktRise_par (s : State) : (bumpPktRise s).par = s.par := rfl
@[simp] theorem bumpPktRise_now (s : State) : (bumpPktRise s).now = s.now := rfl
@[simp] theorem bumpPktRise_host (s : State) : (bumpPktRise s).host = s.host := rfl
@[simp] theorem bumpPktRise_trd (s : State) : (bumpPktRise s).dev.trd = s.dev.trd := rfl
@[simp] theorem bumpPktRise_outq (s : State) : (bumpPktRise s).dev.outq = s.dev.outq := rfl
@[simp] theorem bumpPktRise_parms (s : State) : (bumpPktRise s).dev.parms = s.dev.parms := rfl
@[simp] theorem bumpPktRise_inited (s : State) : (bumpPktRise s).dev.inited = s.dev.inited := rfl
@[simp] theorem bumpPktRise_mode (s : State) : (bumpPktRise s).dev.str.mode = s.dev.str.mode := rfl
@[simp] theorem bumpPktRise_cntPktRise (s : State) : (bumpPktRise s).dev.str.cntPktRise = s.dev.str.cntPktRise + 1 := rfl
@[simp] theorem bumpPktRise_cntPktFall (s : State) : (bumpPktRise s).dev.str.cntPktFall = s.dev.str.cntPktFall := rfl
@[simp] theorem bumpPktRise_cntThrRise (s : State) : (bumpPktRise s).dev.str.cntThrRise = s.dev.str.cntThrRise := rfl
@[simp] theorem bumpPktRise_cntThrFall (s : State) : (bumpPktRise s).dev.str.cntThrFall = s.dev.str.cntThrFall := rfl
@[simp] theorem bumpPktRise_txbuf (s : State) : (bumpPktRise s).dev.str.txbuf = s.dev.str.txbuf := rfl
@[simp] theorem bumpPktRise_txlen (s : State) : (bumpPktRise s).dev.str.txlen = s.dev.str.txlen := rfl
@[simp] theorem bumpPktRise_txpos (s : State) : (bumpPktRise s).dev.str.txpos = s.dev.str.txpos := rfl
@[simp] theorem bumpPktRise_rxbuf (s : State) : (bumpPktRise s).dev.str.rxbuf = s.dev.str.rxbuf := rfl
@[simp] theorem bumpPktRise_rxlen (s : State) : (bumpPktRise s).dev.str.rxlen = s.dev.str.rxlen := rfl
@[simp] theorem bumpPktRise_gpio (s : State) : (bumpPktRise s).dev.gpio = s.dev.gpio := rfl
@[simp] theorem bumpPktRise_gie (s : State) : (bumpPktRise s).dev.gie = s.dev.gie := rfl
@[simp] theorem bumpPktRise_lH2D (s : State) : (bumpPktRise s).lH2D = s.lH2D := rfl
@[simp] theorem bumpPktRise_lD2H (s : State) : (bumpPktRise s).lD2H = s.lD2H := rfl
@[simp] theorem bumpPktRise_termIn (s : State) : (bumpPktRise s).termIn = s.termIn := rfl
@[simp] theorem bumpPktRise_termOut (s : State) : (bumpPktRise s).termOut = s.termOut := rfl
@[simp] theorem bumpPktRise_log (s : State) : (bumpPktRise s).log = s.log := rfl
@[simp] theorem bumpPktRise_radio (s : State) : (bumpPktRise s).radio = s.radio := rfl
@[simp] theorem bumpPktRise_agenda (s : State) : (bumpPktRise s).agenda = s.agenda := rfl
@[simp] theorem bumpPktRise_freeCtr (s : State) : (bumpPktRise s).freeCtr = s.freeCtr := rfl

/-! `bumpPktFall` -/

@[simp] theorem bumpPktFall_par (s : State) : (bumpPktFall s).par = s.par := rfl
@[simp] theorem bumpPktFall_now (s : State) : (bumpPktFall s).now = s.now := rfl
@[simp] theorem bumpPktFall_host (s : State) : (bumpPktFall s).host = s.host := rfl
@[simp] theorem bumpPktFall_trd (s : State) : (bumpPktFall s).dev.trd = s.dev.trd := rfl
@[simp] theorem bumpPktFall_outq (s : State) : (bumpPktFall s).dev.outq = s.dev.outq := rfl
@[simp] theorem bumpPktFall_parms (s : State) : (bumpPktFall s).dev.parms = s.dev.parms := rfl
@[simp] theorem bumpPktFall_inited (s : State) : (bumpPktFall s).dev.inited = s.dev.inited := rfl
@[simp] theorem bumpPktFall_mode (s : State) : (bumpPktFall s).dev.str.mode = s.dev.str.mode := rfl
@[simp] theorem bumpPktFall_cntPktRise (s : State) : (bumpPktFall s).dev.str.cntPktRise = s.dev.str.cntPktRise := rfl
@[simp] theorem bumpPktFall_cntPktFall (s : State) : (bumpPktFall s).dev.str.cntPktFall = s.dev.str.cntPktFall + 1 := rfl
@[simp] theorem bumpPktFall_cntThrRise (s : State) : (bumpPktFall s).dev.str.cntThrRise = s.dev.str.cntThrRise := rfl
@[simp] theorem bumpPktFall_cntThrFall (s : State) : (bumpPktFall s).dev.str.cntThrFall = s.dev.str.cntThrFall := rfl
@[simp] theorem bumpPktFall_txbuf (s : State) : (bumpPktFall s).dev.str.txbuf = s.dev.str.txbuf := rfl
@[simp] theorem bumpPktFall_txlen (s : State) : (bumpPktFall s).dev.str.txlen = s.dev.str.txlen := rfl
@[simp] theorem bumpPktFall_txpos (s : State) : (bumpPktFall s).dev.str.txpos = s.dev.str.txpos := rfl
@[simp] theorem bumpPktFall_rxbuf (s : State) : (bumpPktFall s).dev.str.rxbuf = s.dev.str.rxbuf := rfl
@[simp] theorem bumpPktFall_rxlen (s : State) : (bumpPktFall s).dev.str.rxlen = s.dev.str.rxlen := rfl
@[simp] theorem bumpPktFall_gpio (s : State) : (bumpPktFall s).dev.gpio = s.dev.gpio := rfl
@[simp] theorem bumpPktFall_gie (s : State) : (bumpPktFall s).dev.gie = s.dev.gie := rfl
@[simp] theorem bumpPktFall_lH2D (s : State) : (bumpPktFall s).lH2D = s.lH2D := rfl
@[simp] theorem bumpPktFall_lD2H (s : State) : (bumpPktFall s).lD2H = s.lD2H := rfl
@[simp] theorem bumpPktFall_termIn (s : State) : (bumpPktFall s).termIn = s.termIn := rfl
@[simp] theorem bumpPktFall_termOut (s : State) : (bumpPktFall s).termOut = s.termOut := rfl
@[simp] theorem bumpPktFall_log (s : State) : (bumpPktFall s).log = s.log := rfl
@[simp] theorem bumpPktFall_radio (s : State) : (bumpPktFall s).radio = s.radio := rfl
@[simp] theorem bumpPktFall_agenda (s : State) : (bumpPktFall s).agenda = s.agenda := rfl
@[simp] theorem bumpPktFall_freeCtr (s : State) : (bumpPktFall s).freeCtr = s.freeCtr := rfl

/-! `bumpThrRise` -/

@[simp] theorem bumpThrRise_par (s : State) : (bumpThrRise s).par = s.par := rfl
@[simp] theorem bumpThrRise_now (s : State) : (bumpThrRise s).now = s.now := rfl
@[simp] theorem bumpThrRise_host (s : State) : (bumpThrRise s).host = s.host := rfl
@[simp] theorem bumpThrRise_trd (s : State) : (bumpThrRise s).dev.trd = s.dev.trd := rfl
@[simp] theorem bumpThrRise_outq (s : State) : (bumpThrRise s).dev.outq = s.dev.outq := rfl
@[simp] theorem bumpThrRise_parms (s : State) : (bumpThrRise s).dev.parms = s.dev.parms := rfl
@[simp] theorem bumpThrRise_inited (s : State) : (bumpThrRise s).dev.inited = s.dev.inited := rfl
@[simp] theorem bumpThrRise_mode (s : State) : (bumpThrRise s).dev.str.mode = s.dev.str.mode := rfl
@[simp] theorem bumpThrRise_cntPktRise (s : State) : (bumpThrRise s).dev.str.cntPktRise = s.dev.str.cntPktRise := rfl
@[simp] theorem bumpThrRise_cntPktFall (s : State) : (bumpThrRise s).dev.str.cntPktFall = s.dev.str.cntPktFall := rfl
@[simp] theorem bumpThrRise_cntThrRise (s : State) : (bumpThrRise s).dev.str.cntThrRise = s.dev.str.cntThrRise + 1 := rfl
@[simp] theorem bumpThrRise_cntThrFall (s : State) : (bumpThrRise s).dev.str.cntThrFall = s.dev.str.cntThrFall := rfl
@[simp] theorem bumpThrRise_txbuf (s : State) : (bumpThrRise s).dev.str.txbuf = s.dev.str.txbuf := rfl
@[simp] theorem bumpThrRise_txlen (s : State) : (bumpThrRise s).dev.str.txlen = s.dev.str.txlen := rfl
@[simp] theorem bumpThrRise_txpos (s : State) : (bumpThrRise s).dev.str.txpos = s.dev.str.txpos := rfl
@[simp] theorem bumpThrRise_rxbuf (s : State) : (bumpThrRise s).dev.str.rxbuf = s.dev.str.rxbuf := rfl
@[simp] theorem bumpThrRise_rxlen (s : State) : (bumpThrRise s).dev.str.rxlen = s.dev.str.rxlen := rfl
@[simp] theorem bumpThrRise_gpio (s : State) : (bumpThrRise s).dev.gpio = s.dev.gpio := rfl
@[simp] theorem bumpThrRise_gie (s : State) : (bumpThrRise s).dev.gie = s.dev.gie := rfl
@[simp] theorem bumpThrRise_lH2D (s : State) : (bumpThrRise s).lH2D = s.lH2D := rfl
@[simp] theorem bumpThrRise_lD2H (s : State) : (bumpThrRise s).lD2H = s.lD2H := rfl
@[simp] theorem bumpThrRise_termIn (s : State) : (bumpThrRise s).termIn = s.termIn := rfl
@[simp] theorem bumpThrRise_termOut (s : State) : (bumpThrRise s).termOut = s.termOut := rfl
@[simp] theorem bumpThrRise_log (s : State) : (bumpThrRise s).log = s.log := rfl
@[simp] theorem bumpThrRise_radio (s : State) : (bumpThrRise s).radio = s.radio := rfl
@[simp] theorem bumpThrRise_agenda (s : State) : (bumpThrRise s).agenda = s.agenda := rfl
@[simp] theorem bumpThrRise_freeCtr (s : State) : (bumpThrRise s).freeCtr = s.freeCtr := rfl

/-! `bumpThrFall` -/

@[simp] theorem bumpThrFall_par (s : State) : (bumpThrFall s).par = s.par := rfl
@[simp] theorem bumpThrFall_now (s : State) : (bumpThrFall s).now = s.now := rfl
@[simp] theorem bumpThrFall_host (s : State) : (bumpThrFall s).host = s.host := rfl
@[simp] theorem bumpThrFall_trd (s : State) : (bumpThrFall s).dev.trd = s.dev.trd := rfl
@[simp] theorem bumpThrFall_outq (s : State) : (bumpThrFall s).dev.outq = s.dev.outq := rfl
@[simp] theorem bumpThrFall_parms (s : State) : (bumpThrFall s).dev.parms = s.dev.parms := rfl
@[simp] theorem bumpThrFall_inited (s : State) : (bumpThrFall s).dev.inited = s.dev.inited := rfl
@[simp] theorem bumpThrFall_mode (s : State) : (bumpThrFall s).dev.str.mode = s.dev.str.mode := rfl
@[simp] theorem bumpThrFall_cntPktRise (s : State) : (bumpThrFall s).dev.str.cntPktRise = s.dev.str.cntPktRise := rfl
@[simp] theorem bumpThrFall_cntPktFall (s : State) : (bumpThrFall s).dev.str.cntPktFall = s.dev.str.cntPktFall := rfl
@[simp] theorem bumpThrFall_cntThrRise (s : State) : (bumpThrFall s).dev.str.cntThrRise = s.dev.str.cntThrRise := rfl
@[simp] theorem bumpThrFall_cntThrFall (s : State) : (bumpThrFall s).dev.str.cntThrFall = s.dev.str.cntThrFall + 1 := rfl
@[simp] theorem bumpThrFall_txbuf (s : State) : (bumpThrFall s).dev.str.txbuf = s.dev.str.txbuf := rfl
@[simp] theorem bumpThrFall_txlen (s : State) : (bumpThrFall s).dev.str.txlen = s.dev.str.txlen := rfl
@[simp] theorem bumpThrFall_txpos (s : State) : (bumpThrFall s).dev.str.txpos = s.dev.str.txpos := rfl
@[simp] theorem bumpThrFall_rxbuf (s : State) : (bumpThrFall s).dev.str.rxbuf = s.dev.str.rxbuf := rfl
@[simp] theorem bumpThrFall_rxlen (s : State) : (bumpThrFall s).dev.str.rxlen = s.dev.str.rxlen := rfl
@[simp] theorem bumpThrFall_gpio (s : State) : (bumpThrFall s).dev.gpio = s.dev.gpio := rfl
@[simp] theorem bumpThrFall_gie (s : State) : (bumpThrFall s).dev.gie = s.dev.gie := rfl
@[simp] theorem bumpThrFall_lH2D (s : State) : (bumpThrFall s).lH2D = s.lH2D := rfl
@[simp] theorem bumpThrFall_lD2H (s : State) : (bumpThrFall s).lD2H = s.lD2H := rfl
@[simp] theorem bumpThrFall_termIn (s : State) : (bumpThrFall s).termIn = s.termIn := rfl
@[simp] theorem bumpThrFall_termOut (s : State) : (bumpThrFall s).termOut = s.termOut := rfl
@[simp] theorem bumpThrFall_log (s : State) : (bumpThrFall s).log = s.log := rfl
@[simp] theorem bumpThrFall_radio (s : State) : (bumpThrFall s).radio = s.radio := rfl
@[simp] theorem bumpThrFall_agenda (s : State) : (bumpThrFall s).agenda = s.agenda := rfl
@[simp] theorem bumpThrFall_freeCtr (s : State) : (bumpThrFall s).freeCtr = s.freeCtr := rfl

/-! `pushTxFifo` and `dropRxFifo` -/

@[simp] theorem pushTxFifo_par (b : Bytes) (s : State) : (pushTxFifo b s).par = s.par := rfl
@[simp] theorem pushTxFifo_now (b : Bytes) (s : State) : (pushTxFifo b s).now = s.now := rfl
@[simp] theorem pushTxFifo_host (b : Bytes) (s : State) : (pushTxFifo b s).host = s.host := rfl
@[simp] theorem pushTxFifo_dev (b : Bytes) (s : State) : (pushTxFifo b s).dev = s.dev := rfl
@[simp] theorem pushTxFifo_lH2D (b : Bytes) (s : State) : (pushTxFifo b s).lH2D = s.lH2D := rfl
@[simp] theorem pushTxFifo_lD2H (b : Bytes) (s : State) : (pushTxFifo b s).lD2H = s.lD2H := rfl
@[simp] theorem pushTxFifo_termIn (b : Bytes) (s : State) : (pushTxFifo b s).termIn = s.termIn := rfl
@[simp] theorem pushTxFifo_termOut (b : Bytes) (s : State) : (pushTxFifo b s).termOut = s.termOut := rfl
@[simp] theorem pushTxFifo_log (b : Bytes) (s : State) : (pushTxFifo b s).log = s.log := rfl
@[simp] theorem pushTxFifo_radio (b : Bytes) (s : State) : (pushTxFifo b s).radio = { s.radio with txFifo := s.radio.txFifo ++ b } := rfl
@[simp] theorem pushTxFifo_agenda (b : Bytes) (s : State) : (pushTxFifo b s).agenda = s.agenda := rfl
@[simp] theorem pushTxFifo_freeCtr (b : Bytes) (s : State) : (pushTxFifo b s).freeCtr = s.freeCtr := rfl
@[simp] theorem dropRxFifo_par (n : Nat) (s : State) : (dropRxFifo n s).par = s.par := rfl
@[simp] theorem dropRxFifo_now (n : Nat) (s : State) : (dropRxFifo n s).now = s.now := rfl
@[simp] theorem dropRxFifo_host (n : Nat) (s : State) : (dropRxFifo n s).host = s.host := rfl
@[simp] theorem dropRxFifo_dev (n : Nat) (s : State) : (dropRxFifo n s).dev = s.dev := rfl
@[simp] theorem dropRxFifo_lH2D (n : Nat) (s : State) : (dropRxFifo n s).lH2D = s.lH2D := rfl
@[simp] theorem dropRxFifo_lD2H (n : Nat) (s : State) : (dropRxFifo n s).lD2H = s.lD2H := rfl
@[simp] theorem dropRxFifo_termIn (n : Nat) (s : State) : (dropRxFifo n s).termIn = s.termIn := rfl
@[simp] theorem dropRxFifo_termOut (n : Nat) (s : State) : (dropRxFifo n s).termOut = s.termOut := rfl
@[simp] theorem dropRxFifo_log (n : Nat) (s : State) : (dropRxFifo n s).log = s.log := rfl
@[simp] theorem dropRxFifo_radio (n : Nat) (s : State) : (dropRxFifo n s).radio = { s.radio with rxFifo := s.radio.rxFifo.drop n } := rfl
@[simp] theorem dropRxFifo_agenda (n : Nat) (s : State) : (dropRxFifo n s).agenda = s.agenda := rfl
@[simp] theorem dropRxFifo_freeCtr (n : Nat) (s : State) : (dropRxFifo n s).freeCtr = s.freeCtr := rfl

/-! `respond` -/

@[simp] theorem respond_par (ty : BlockType) (p : Bytes) (s : State) : (respond ty p s).par = s.par := rfl
@[simp] theorem respond_now (ty : BlockType) (p : Bytes) (s : State) : (respond ty p s).now = s.now := rfl
@[simp] theorem respond_host (ty : BlockType) (p : Bytes) (s : State) : (respond ty p s).host = s.host := rfl
@[simp] theorem respond_trd (ty : BlockType) (p : Bytes) (s : State) : (respond ty p s).dev.trd = s.dev.trd := rfl
@[simp] theorem respond_outq (ty : BlockType) (p : Bytes) (s : State) : (respond ty p s).dev.outq = s.dev.outq ++ [blockBytes (typeCode ty) p] := rfl
@[simp] theorem respond_parms (ty : BlockType) (p : Bytes) (s : State) : (respond ty p s).dev.parms = s.dev.parms := rfl
@[simp] theorem respond_inited (ty : BlockType) (p : Bytes) (s : State) : (respond ty p s).dev.inited = s.dev.inited := rfl
@[simp] theorem respond_str (ty : BlockType) (p : Bytes) (s : State) : (respond ty p s).dev.str = s.dev.str := rfl
@[simp] theorem respond_gpio (ty : BlockType) (p : Bytes) (s : State) : (respond ty p s).dev.gpio = s.dev.gpio := rfl
@[simp] theorem respond_gie (ty : BlockType) (p : Bytes) (s : State) : (respond ty p s).dev.gie = s.dev.gie := rfl
@[simp] theorem respond_lH2D (ty : BlockType) (p : Bytes) (s : State) : (respond ty p s).lH2D = s.lH2D := rfl
@[simp] theorem respond_lD2H (ty : BlockType) (p : Bytes) (s : State) : (respond ty p s).lD2H = s.lD2H := rfl
@[simp] theorem respond_termIn (ty : BlockType) (p : Bytes) (s : State) : (respond ty p s).termIn = s.termIn := rfl
@[simp] theorem respond_termOut (ty : BlockType) (p : Bytes) (s : State) : (respond ty p s).termOut = s.termOut := rfl
@[simp] theorem respond_log (ty : BlockType) (p : Bytes) (s : State) : (respond ty p s).log = s.log := rfl
@[simp] theorem respond_radio (ty : BlockType) (p : Bytes) (s : State) : (respond ty p s).radio = s.radio := rfl
@[simp] theorem respond_agenda (ty : BlockType) (p : Bytes) (s : State) : (respond ty p s).agenda = s.agenda := rfl
@[simp] theorem respond_freeCtr (ty : BlockType) (p : Bytes) (s : State) : (respond ty p s).freeCtr = s.freeCtr := rfl

/-! `interruptEntry` -/

@[simp] theorem interruptEntry_par (s : State) : (interruptEntry s).par = s.par := rfl
@[simp] theorem interruptEntry_now (s : State) : (interruptEntry s).now = s.now := rfl
@[simp] theorem interruptEntry_host (s : State) : (interruptEntry s).host = s.host := rfl
@[simp] theorem interruptEntry_trd (s : State) : (interruptEntry s).dev.trd = s.dev.trd := rfl
@[simp] theorem interruptEntry_outq (s : State) : (interruptEntry s).dev.outq = s.dev.outq := rfl
@[simp] theorem interruptEntry_parms (s : State) : (interruptEntry s).dev.parms = s.dev.parms := rfl
@[simp] theorem interruptEntry_inited (s : State) : (interruptEntry s).dev.inited = s.dev.inited := rfl
@[simp] theorem interruptEntry_str (s : State) : (interruptEntry s).dev.str = s.dev.str := rfl
@[simp] theorem interruptEntry_gpio (s : State) : (interruptEntry s).dev.gpio = s.dev.gpio := rfl
@[simp] theorem interruptEntry_gie (s : State) : (interruptEntry s).dev.gie = false := rfl
@[simp] theorem interruptEntry_lH2D (s : State) : (interruptEntry s).lH2D = s.lH2D := rfl
@[simp] theorem interruptEntry_lD2H (s : State) : (interruptEntry s).lD2H = s.lD2H := rfl
@[simp] theorem interruptEntry_termIn (s : State) : (interruptEntry s).termIn = s.termIn := rfl
@[simp] theorem interruptEntry_termOut (s : State) : (interruptEntry s).termOut = s.termOut := rfl
@[simp] theorem interruptEntry_log (s : State) : (interruptEntry s).log = s.log := rfl
@[simp] theorem interruptEntry_radio (s : State) : (interruptEntry s).radio = s.radio := rfl
@[simp] theorem interruptEntry_agenda (s : State) : (interruptEntry s).agenda = s.agenda := rfl
@[simp] theorem interruptEntry_freeCtr (s : State) : (interruptEntry s).freeCtr = s.freeCtr := rfl

/-! `strobeStartTx` -/

@[simp] theorem strobeStartTx_par (s : State) : (strobeStartTx s).par = s.par := rfl
@[simp] theorem strobeStartTx_now (s : State) : (strobeStartTx s).now = s.now := rfl
@[simp] theorem strobeStartTx_host (s : State) : (strobeStartTx s).host = s.host := rfl
@[simp] theorem strobeStartTx_dev (s : State) : (strobeStartTx s).dev = s.dev := rfl
@[simp] theorem strobeStartTx_lH2D (s : State) : (strobeStartTx s).lH2D = s.lH2D := rfl
@[simp] theorem strobeStartTx_lD2H (s : State) : (strobeStartTx s).lD2H = s.lD2H := rfl
@[simp] theorem strobeStartTx_termIn (s : State) : (strobeStartTx s).termIn = s.termIn := rfl
@[simp] theorem strobeStartTx_termOut (s : State) : (strobeStartTx s).termOut = s.termOut := rfl
@[simp] theorem strobeStartTx_log (s : State) : (strobeStartTx s).log = s.log := rfl
@[simp] theorem strobeStartTx_radio (s : State) : (strobeStartTx s).radio = { s.radio with rstate := .tx, sent := 0, synced := false, airLen := s.radio.airSel.getD s.dev.str.txlen } := rfl
@[simp] theorem strobeStartTx_agenda (s : State) : (strobeStartTx s).agenda = s.agenda := rfl
@[simp] theorem strobeStartTx_freeCtr (s : State) : (strobeStartTx s).freeCtr = s.freeCtr := rfl

/-! `strobeStartRx` -/

@[simp] theorem strobeStartRx_par (s : State) : (strobeStartRx s).par = s.par := rfl
@[simp] theorem strobeStartRx_now (s : State) : (strobeStartRx s).now = s.now := rfl
@[simp] theorem strobeStartRx_host (s : State) : (strobeStartRx s).host = s.host := rfl
@[simp] theorem strobeStartRx_dev (s : State) : (strobeStartRx s).dev = s.dev := rfl
@[simp] theorem strobeStartRx_lH2D (s : State) : (strobeStartRx s).lH2D = s.lH2D := rfl
@[simp] theorem strobeStartRx_lD2H (s : State) : (strobeStartRx s).lD2H = s.lD2H := rfl
@[simp] theorem strobeStartRx_termIn (s : State) : (strobeStartRx s).termIn = s.termIn := rfl
@[simp] theorem strobeStartRx_termOut (s : State) : (strobeStartRx s).termOut = s.termOut := rfl
@[simp] theorem strobeStartRx_log (s : State) : (strobeStartRx s).log = s.log := rfl
@[simp] theorem strobeStartRx_radio (s : State) : (strobeStartRx s).radio = { s.radio with rstate := .rx, inPkt := false } := rfl
@[simp] theorem strobeStartRx_agenda (s : State) : (strobeStartRx s).agenda = s.agenda := rfl
@[simp] theorem strobeStartRx_freeCtr (s : State) : (strobeStartRx s).freeCtr = s.freeCtr := rfl

/-! `sleepOp` -/

@[simp] theorem sleepOp_par (t : Nat) (s : State) : (sleepOp t s).par = s.par := rfl
@[simp] theorem sleepOp_now (t : Nat) (s : State) : (sleepOp t s).now = s.now + t := rfl
@[simp] theorem sleepOp_host (t : Nat) (s : State) : (sleepOp t s).host = s.host := rfl
@[simp] theorem sleepOp_dev (t : Nat) (s : State) : (sleepOp t s).dev = s.dev := rfl
@[simp] theorem sleepOp_lH2D (t : Nat) (s : State) : (sleepOp t s).lH2D = s.lH2D := rfl
@[simp] theorem sleepOp_lD2H (t : Nat) (s : State) : (sleepOp t s).lD2H = s.lD2H := rfl
@[simp] theorem sleepOp_termIn (t : Nat) (s : State) : (sleepOp t s).termIn = s.termIn := rfl
@[simp] theorem sleepOp_termOut (t : Nat) (s : State) : (sleepOp t s).termOut = s.termOut := rfl
@[simp] theorem sleepOp_log (t : Nat) (s : State) : (sleepOp t s).log = s.log := rfl
@[simp] theorem sleepOp_radio (t : Nat) (s : State) : (sleepOp t s).radio = s.radio := rfl
@[simp] theorem sleepOp_agenda (t : Nat) (s : State) : (sleepOp t s).agenda = s.agenda := rfl
@[simp] theorem sleepOp_freeCtr (t : Nat) (s : State) : (sleepOp t s).freeCtr = s.freeCtr := rfl

/-! `setArmed` -/

@[simp] theorem setArmed_par (b : Bool) (s : State) : (setArmed b s).par = s.par := rfl
@[simp] theorem setArmed_now (b : Bool) (s : State) : (setArmed b s).now = s.now := rfl
@[simp] theorem setArmed_sch (b : Bool) (s : State) : (setArmed b s).host.sch = { s.host.sch with armed := b } := rfl
@[simp] theorem setArmed_tnc (b : Bool) (s : State) : (setArmed b s).host.tnc = s.host.tnc := rfl
@[simp] theorem setArmed_cfg (b : Bool) (s : State) : (setArmed b s).host.cfg = s.host.cfg := rfl
@[simp] theorem setArmed_trh (b : Bool) (s : State) : (setArmed b s).host.trh = s.host.trh := rfl
@[simp] theorem setArmed_seg (b : Bool) (s : State) : (setArmed b s).host.seg = s.host.seg := rfl
@[simp] theorem setArmed_kiss (b : Bool) (s : State) : (setArmed b s).host.kiss = s.host.kiss := rfl
@[simp] theorem setArmed_ctl (b : Bool) (s : State) : (setArmed b s).host.ctl = s.host.ctl := rfl
@[simp] theorem setArmed_res (b : Bool) (s : State) : (setArmed b s).host.res = s.host.res := rfl
@[simp] theorem setArmed_dev (b : Bool) (s : State) : (setArmed b s).dev = s.dev := rfl
@[simp] theorem setArmed_lH2D (b : Bool) (s : State) : (setArmed b s).lH2D = s.lH2D := rfl
@[simp] theorem setArmed_lD2H (b : Bool) (s : State) : (setArmed b s).lD2H = s.lD2H := rfl
@[simp] theorem setArmed_termIn (b : Bool) (s : State) : (setArmed b s).termIn = s.termIn := rfl
@[simp] theorem setArmed_termOut (b : Bool) (s : State) : (setArmed b s).termOut = s.termOut := rfl
@[simp] theorem setArmed_log (b : Bool) (s : State) : (setArmed b s).log = s.log := rfl
@[simp] theorem setArmed_radio (b : Bool) (s : State) : (setArmed b s).radio = s.radio := rfl
@[simp] theorem setArmed_agenda (b : Bool) (s : State) : (setArmed b s).agenda = s.agenda := rfl
@[simp] theorem setArmed_freeCtr (b : Bool) (s : State) : (setArmed b s).freeCtr = s.freeCtr := rfl

/-! `trdClear` -/

@[simp] theorem trdClear_par (s : State) : (trdClear s).par = s.par := rfl
@[simp] theorem trdClear_now (s : State) : (trdClear s).now = s.now := rfl
@[simp] theorem trdClear_host (s : State) : (trdClear s).host = s.host := rfl
@[simp] theorem trdClear_trd (s : State) : (trdClear s).dev.trd = { s.dev.trd with acc := [], expv := false } := rfl
@[simp] theorem trdClear_outq (s : State) : (trdClear s).dev.outq = s.dev.outq := rfl
@[simp] theorem trdClear_parms (s : State) : (trdClear s).dev.parms = s.dev.parms := rfl
@[simp] theorem trdClear_inited (s : State) : (trdClear s).dev.inited = s.dev.inited := rfl
@[simp] theorem trdClear_str (s : State) : (trdClear s).dev.str = s.dev.str := rfl
@[simp] theorem trdClear_gpio (s : State) : (trdClear s).dev.gpio = s.dev.gpio := rfl
@[simp] theorem trdClear_gie (s : State) : (trdClear s).dev.gie = s.dev.gie := rfl
@[simp] theorem trdClear_lH2D (s : State) : (trdClear s).lH2D = s.lH2D := rfl
@[simp] theorem trdClear_lD2H (s : State) : (trdClear s).lD2H = s.lD2H := rfl
@[simp] theorem trdClear_termIn (s : State) : (trdClear s).termIn = s.termIn := rfl
@[simp] theorem trdClear_termOut (s : State) : (trdClear s).termOut = s.termOut := rfl
@[simp] theorem trdClear_log (s : State) : (trdClear s).log = s.log := rfl
@[simp] theorem trdClear_radio (s : State) : (trdClear s).radio = s.radio := rfl
@[simp] theorem trdClear_agenda (s : State) : (trdClear s).agenda = s.agenda := rfl
@[simp] theorem trdClear_freeCtr (s : State) : (trdClear s).freeCtr = s.freeCtr := rfl

/-! The agents of the environment -/

@[simp] theorem linkH2D_par (k : Nat) (s : State) : (linkH2D k s).par = s.par := rfl
@[simp] theorem linkH2D_now (k : Nat) (s : State) : (linkH2D k s).now = s.now := rfl
@[simp] theorem linkH2D_host (k : Nat) (s : State) : (linkH2D k s).host = s.host := rfl
@[simp] theorem linkH2D_dev (k : Nat) (s : State) : (linkH2D k s).dev = s.dev := rfl
@[simp] theorem linkH2D_lH2D (k : Nat) (s : State) : (linkH2D k s).lH2D = chanDeliver s.lH2D k := rfl
@[simp] theorem linkH2D_lD2H (k : Nat) (s : State) : (linkH2D k s).lD2H = s.lD2H := rfl
@[simp] theorem linkH2D_termIn (k : Nat) (s : State) : (linkH2D k s).termIn = s.termIn := rfl
@[simp] theorem linkH2D_termOut (k : Nat) (s : State) : (linkH2D k s).termOut = s.termOut := rfl
@[simp] theorem linkH2D_log (k : Nat) (s : State) : (linkH2D k s).log = s.log := rfl
@[simp] theorem linkH2D_radio (k : Nat) (s : State) : (linkH2D k s).radio = s.radio := rfl
@[simp] theorem linkH2D_agenda (k : Nat) (s : State) : (linkH2D k s).agenda = s.agenda := rfl
@[simp] theorem linkH2D_freeCtr (k : Nat) (s : State) : (linkH2D k s).freeCtr = s.freeCtr := rfl
@[simp] theorem linkD2H_par (k : Nat) (s : State) : (linkD2H k s).par = s.par := rfl
@[simp] theorem linkD2H_now (k : Nat) (s : State) : (linkD2H k s).now = s.now := rfl
@[simp] theorem linkD2H_host (k : Nat) (s : State) : (linkD2H k s).host = s.host := rfl
@[simp] theorem linkD2H_dev (k : Nat) (s : State) : (linkD2H k s).dev = s.dev := rfl
@[simp] theorem linkD2H_lH2D (k : Nat) (s : State) : (linkD2H k s).lH2D = s.lH2D := rfl
@[simp] theorem linkD2H_lD2H (k : Nat) (s : State) : (linkD2H k s).lD2H = chanDeliver s.lD2H k := rfl
@[simp] theorem linkD2H_termIn (k : Nat) (s : State) : (linkD2H k s).termIn = s.termIn := rfl
@[simp] theorem linkD2H_termOut (k : Nat) (s : State) : (linkD2H k s).termOut = s.termOut := rfl
@[simp] theorem linkD2H_log (k : Nat) (s : State) : (linkD2H k s).log = s.log := rfl
@[simp] theorem linkD2H_radio (k : Nat) (s : State) : (linkD2H k s).radio = s.radio := rfl
@[simp] theorem linkD2H_agenda (k : Nat) (s : State) : (linkD2H k s).agenda = s.agenda := rfl
@[simp] theorem linkD2H_freeCtr (k : Nat) (s : State) : (linkD2H k s).freeCtr = s.freeCtr := rfl
@[simp] theorem termPut_par (b : Bytes) (s : State) : (termPut b s).par = s.par := rfl
@[simp] theorem termPut_now (b : Bytes) (s : State) : (termPut b s).now = s.now := rfl
@[simp] theorem termPut_host (b : Bytes) (s : State) : (termPut b s).host = s.host := rfl
@[simp] theorem termPut_dev (b : Bytes) (s : State) : (termPut b s).dev = s.dev := rfl
@[simp] theorem termPut_lH2D (b : Bytes) (s : State) : (termPut b s).lH2D = s.lH2D := rfl
@[simp] theorem termPut_lD2H (b : Bytes) (s : State) : (termPut b s).lD2H = s.lD2H := rfl
@[simp] theorem termPut_termIn (b : Bytes) (s : State) : (termPut b s).termIn = s.termIn ++ b := rfl
@[simp] theorem termPut_termOut (b : Bytes) (s : State) : (termPut b s).termOut = s.termOut := rfl
@[simp] theorem termPut_log (b : Bytes) (s : State) : (termPut b s).log = s.log := rfl
@[simp] theorem termPut_radio (b : Bytes) (s : State) : (termPut b s).radio = s.radio := rfl
@[simp] theorem termPut_agenda (b : Bytes) (s : State) : (termPut b s).agenda = s.agenda := rfl
@[simp] theorem termPut_freeCtr (b : Bytes) (s : State) : (termPut b s).freeCtr = s.freeCtr := rfl
@[simp] theorem termTake_par (k : Nat) (s : State) : (termTake k s).par = s.par := rfl
@[simp] theorem termTake_now (k : Nat) (s : State) : (termTake k s).now = s.now := rfl
@[simp] theorem termTake_host (k : Nat) (s : State) : (termTake k s).host = s.host := rfl
@[simp] theorem termTake_dev (k : Nat) (s : State) : (termTake k s).dev = s.dev := rfl
@[simp] theorem termTake_lH2D (k : Nat) (s : State) : (termTake k s).lH2D = s.lH2D := rfl
@[simp] theorem termTake_lD2H (k : Nat) (s : State) : (termTake k s).lD2H = s.lD2H := rfl
@[simp] theorem termTake_termIn (k : Nat) (s : State) : (termTake k s).termIn = s.termIn := rfl
@[simp] theorem termTake_termOut (k : Nat) (s : State) : (termTake k s).termOut = s.termOut.drop k := rfl
@[simp] theorem termTake_log (k : Nat) (s : State) : (termTake k s).log = s.log := rfl
@[simp] theorem termTake_radio (k : Nat) (s : State) : (termTake k s).radio = s.radio := rfl
@[simp] theorem termTake_agenda (k : Nat) (s : State) : (termTake k s).agenda = s.agenda := rfl
@[simp] theorem termTake_freeCtr (k : Nat) (s : State) : (termTake k s).freeCtr = s.freeCtr := rfl
@[simp] theorem clockTick_par (n : Nat) (s : State) : (clockTick n s).par = s.par := rfl
@[simp] theorem clockTick_now (n : Nat) (s : State) : (clockTick n s).now = s.now + n := rfl
@[simp] theorem clockTick_host (n : Nat) (s : State) : (clockTick n s).host = s.host := rfl
@[simp] theorem clockTick_dev (n : Nat) (s : State) : (clockTick n s).dev = s.dev := rfl
@[simp] theorem clockTick_lH2D (n : Nat) (s : State) : (clockTick n s).lH2D = s.lH2D := rfl
@[simp] theorem clockTick_lD2H (n : Nat) (s : State) : (clockTick n s).lD2H = s.lD2H := rfl
@[simp] theorem clockTick_termIn (n : Nat) (s : State) : (clockTick n s).termIn = s.termIn := rfl
@[simp] theorem clockTick_termOut (n : Nat) (s : State) : (clockTick n s).termOut = s.termOut := rfl
@[simp] theorem clockTick_log (n : Nat) (s : State) : (clockTick n s).log = s.log := rfl
@[simp] theorem clockTick_radio (n : Nat) (s : State) : (clockTick n s).radio = s.radio := rfl
@[simp] theorem clockTick_agenda (n : Nat) (s : State) : (clockTick n s).agenda = s.agenda := rfl
@[simp] theorem clockTick_freeCtr (n : Nat) (s : State) : (clockTick n s).freeCtr = s.freeCtr := rfl

/-! The starts of the two halves -/

@[simp] theorem powerUp_par (s : State) : (powerUp s).par = s.par := rfl
@[simp] theorem powerUp_now (s : State) : (powerUp s).now = s.now := rfl
@[simp] theorem powerUp_host (s : State) : (powerUp s).host = s.host := rfl
@[simp] theorem powerUp_trd (s : State) : (powerUp s).dev.trd = DevHalf.reset.trd := rfl
@[simp] theorem powerUp_outq (s : State) : (powerUp s).dev.outq = [] := rfl
@[simp] theorem powerUp_parms (s : State) : (powerUp s).dev.parms = List.replicate s.par.parmsLen 0 := rfl
@[simp] theorem powerUp_inited (s : State) : (powerUp s).dev.inited = false := rfl
@[simp] theorem powerUp_str (s : State) : (powerUp s).dev.str = DevHalf.reset.str := rfl
@[simp] theorem powerUp_gpio (s : State) : (powerUp s).dev.gpio = DevHalf.reset.gpio := rfl
@[simp] theorem powerUp_gie (s : State) : (powerUp s).dev.gie = true := rfl
@[simp] theorem powerUp_lH2D (s : State) : (powerUp s).lH2D = Chan.empty := rfl
@[simp] theorem powerUp_lD2H (s : State) : (powerUp s).lD2H = Chan.empty := rfl
@[simp] theorem powerUp_termIn (s : State) : (powerUp s).termIn = s.termIn := rfl
@[simp] theorem powerUp_termOut (s : State) : (powerUp s).termOut = s.termOut := rfl
@[simp] theorem powerUp_log (s : State) : (powerUp s).log = s.log := rfl
@[simp] theorem powerUp_radio (s : State) : (powerUp s).radio = { s.radio with rstate := .idle, txFifo := [], rxFifo := [], txUnf := false, rxOvf := false } := rfl
@[simp] theorem powerUp_agenda (s : State) : (powerUp s).agenda = s.agenda := rfl
@[simp] theorem powerUp_freeCtr (s : State) : (powerUp s).freeCtr = s.freeCtr := rfl
@[simp] theorem hostStart_par (m n : Nat) (s : State) : (hostStart m n s).par = s.par := rfl
@[simp] theorem hostStart_now (m n : Nat) (s : State) : (hostStart m n s).now = s.now := rfl
@[simp] theorem hostStart_sch (m n : Nat) (s : State) : (hostStart m n s).host.sch = Sch.reset s.now := rfl
@[simp] theorem hostStart_tnc (m n : Nat) (s : State) : (hostStart m n s).host.tnc = { HostHalf.reset.tnc with keyup := m, keydown := n } := rfl
@[simp] theorem hostStart_cfg (m n : Nat) (s : State) : (hostStart m n s).host.cfg = s.host.cfg := rfl
@[simp] theorem hostStart_trh (m n : Nat) (s : State) : (hostStart m n s).host.trh = HostHalf.reset.trh := rfl
@[simp] theorem hostStart_seg (m n : Nat) (s : State) : (hostStart m n s).host.seg = HostHalf.reset.seg := rfl
@[simp] theorem hostStart_kiss (m n : Nat) (s : State) : (hostStart m n s).host.kiss = HostHalf.reset.kiss := rfl
@[simp] theorem hostStart_ctl (m n : Nat) (s : State) : (hostStart m n s).host.ctl = [.call .schedStart] := rfl
@[simp] theorem hostStart_res (m n : Nat) (s : State) : (hostStart m n s).host.res = .nothing := rfl
@[simp] theorem hostStart_dev (m n : Nat) (s : State) : (hostStart m n s).dev = s.dev := rfl
@[simp] theorem hostStart_lH2D (m n : Nat) (s : State) : (hostStart m n s).lH2D = Chan.empty := rfl
@[simp] theorem hostStart_lD2H (m n : Nat) (s : State) : (hostStart m n s).lD2H = Chan.empty := rfl
@[simp] theorem hostStart_termIn (m n : Nat) (s : State) : (hostStart m n s).termIn = [] := rfl
@[simp] theorem hostStart_termOut (m n : Nat) (s : State) : (hostStart m n s).termOut = [] := rfl
@[simp] theorem hostStart_log (m n : Nat) (s : State) : (hostStart m n s).log = s.log := rfl
@[simp] theorem hostStart_radio (m n : Nat) (s : State) : (hostStart m n s).radio = s.radio := rfl
@[simp] theorem hostStart_agenda (m n : Nat) (s : State) : (hostStart m n s).agenda = s.agenda := rfl
@[simp] theorem hostStart_freeCtr (m n : Nat) (s : State) : (hostStart m n s).freeCtr = s.freeCtr := rfl

/-! The bits of a line after a write of one register: the other three registers keep theirs -/

@[simp] theorem ifgOf_setPin (x y : Line) (b : Bool) (s : State) : ifgOf y (setPin x b s) = ifgOf y s := rfl
@[simp] theorem ieOf_setPin (x y : Line) (b : Bool) (s : State) : ieOf y (setPin x b s) = ieOf y s := rfl
@[simp] theorem iesOf_setPin (x y : Line) (b : Bool) (s : State) : iesOf y (setPin x b s) = iesOf y s := rfl
@[simp] theorem pinOf_setPin (x y : Line) (b : Bool) (s : State) :
    pinOf y (setPin x b s) = if lineBit s.par y = lineBit s.par x then b else pinOf y s := by
  simp [pinOf]
@[simp] theorem pinOf_setIfg (x y : Line) (b : Bool) (s : State) : pinOf y (setIfg x b s) = pinOf y s := rfl
@[simp] theorem ieOf_setIfg (x y : Line) (b : Bool) (s : State) : ieOf y (setIfg x b s) = ieOf y s := rfl
@[simp] theorem iesOf_setIfg (x y : Line) (b : Bool) (s : State) : iesOf y (setIfg x b s) = iesOf y s := rfl
@[simp] theorem ifgOf_setIfg (x y : Line) (b : Bool) (s : State) :
    ifgOf y (setIfg x b s) = if lineBit s.par y = lineBit s.par x then b else ifgOf y s := by
  simp [ifgOf]
@[simp] theorem pinOf_setIe (x y : Line) (b : Bool) (s : State) : pinOf y (setIe x b s) = pinOf y s := rfl
@[simp] theorem ifgOf_setIe (x y : Line) (b : Bool) (s : State) : ifgOf y (setIe x b s) = ifgOf y s := rfl
@[simp] theorem iesOf_setIe (x y : Line) (b : Bool) (s : State) : iesOf y (setIe x b s) = iesOf y s := rfl
@[simp] theorem ieOf_setIe (x y : Line) (b : Bool) (s : State) :
    ieOf y (setIe x b s) = if lineBit s.par y = lineBit s.par x then b else ieOf y s := by
  simp [ieOf]
@[simp] theorem pinOf_setIes (x y : Line) (b : Bool) (s : State) : pinOf y (setIes x b s) = pinOf y s := rfl
@[simp] theorem ifgOf_setIes (x y : Line) (b : Bool) (s : State) : ifgOf y (setIes x b s) = ifgOf y s := rfl
@[simp] theorem ieOf_setIes (x y : Line) (b : Bool) (s : State) : ieOf y (setIes x b s) = ieOf y s := rfl
@[simp] theorem iesOf_setIes (x y : Line) (b : Bool) (s : State) :
    iesOf y (setIes x b s) = if lineBit s.par y = lineBit s.par x then b else iesOf y s := by
  simp [iesOf]

/-! The bits of a line after an update that writes no GPIO register -/

@[simp] theorem pinOf_setTxBuf (x : Line) (p : Bytes) (s : State) : pinOf x (setTxBuf p s) = pinOf x s := rfl
@[simp] theorem ifgOf_setTxBuf (x : Line) (p : Bytes) (s : State) : ifgOf x (setTxBuf p s) = ifgOf x s := rfl
@[simp] theorem ieOf_setTxBuf (x : Line) (p : Bytes) (s : State) : ieOf x (setTxBuf p s) = ieOf x s := rfl
@[simp] theorem iesOf_setTxBuf (x : Line) (p : Bytes) (s : State) : iesOf x (setTxBuf p s) = iesOf x s := rfl
@[simp] theorem pinOf_setTxPos (x : Line) (n : Nat) (s : State) : pinOf x (setTxPos n s) = pinOf x s := rfl
@[simp] theorem ifgOf_setTxPos (x : Line) (n : Nat) (s : State) : ifgOf x (setTxPos n s) = ifgOf x s := rfl
@[simp] theorem ieOf_setTxPos (x : Line) (n : Nat) (s : State) : ieOf x (setTxPos n s) = ieOf x s := rfl
@[simp] theorem iesOf_setTxPos (x : Line) (n : Nat) (s : State) : iesOf x (setTxPos n s) = iesOf x s := rfl
@[simp] theorem pinOf_setRxLen (x : Line) (b : Byte) (s : State) : pinOf x (setRxLen b s) = pinOf x s := rfl
@[simp] theorem ifgOf_setRxLen (x : Line) (b : Byte) (s : State) : ifgOf x (setRxLen b s) = ifgOf x s := rfl
@[simp] theorem ieOf_setRxLen (x : Line) (b : Byte) (s : State) : ieOf x (setRxLen b s) = ieOf x s := rfl
@[simp] theorem iesOf_setRxLen (x : Line) (b : Byte) (s : State) : iesOf x (setRxLen b s) = iesOf x s := rfl
@[simp] theorem pinOf_appendRxBuf (x : Line) (b : Bytes) (s : State) : pinOf x (appendRxBuf b s) = pinOf x s := rfl
@[simp] theorem ifgOf_appendRxBuf (x : Line) (b : Bytes) (s : State) : ifgOf x (appendRxBuf b s) = ifgOf x s := rfl
@[simp] theorem ieOf_appendRxBuf (x : Line) (b : Bytes) (s : State) : ieOf x (appendRxBuf b s) = ieOf x s := rfl
@[simp] theorem iesOf_appendRxBuf (x : Line) (b : Bytes) (s : State) : iesOf x (appendRxBuf b s) = iesOf x s := rfl
@[simp] theorem pinOf_bumpPktRise (x : Line)  (s : State) : pinOf x (bumpPktRise s) = pinOf x s := rfl
@[simp] theorem ifgOf_bumpPktRise (x : Line)  (s : State) : ifgOf x (bumpPktRise s) = ifgOf x s := rfl
@[simp] theorem ieOf_bumpPktRise (x : Line)  (s : State) : ieOf x (bumpPktRise s) = ieOf x s := rfl
@[simp] theorem iesOf_bumpPktRise (x : Line)  (s : State) : iesOf x (bumpPktRise s) = iesOf x s := rfl
@[simp] theorem pinOf_bumpPktFall (x : Line)  (s : State) : pinOf x (bumpPktFall s) = pinOf x s := rfl
@[simp] theorem ifgOf_bumpPktFall (x : Line)  (s : State) : ifgOf x (bumpPktFall s) = ifgOf x s := rfl
@[simp] theorem ieOf_bumpPktFall (x : Line)  (s : State) : ieOf x (bumpPktFall s) = ieOf x s := rfl
@[simp] theorem iesOf_bumpPktFall (x : Line)  (s : State) : iesOf x (bumpPktFall s) = iesOf x s := rfl
@[simp] theorem pinOf_bumpThrRise (x : Line)  (s : State) : pinOf x (bumpThrRise s) = pinOf x s := rfl
@[simp] theorem ifgOf_bumpThrRise (x : Line)  (s : State) : ifgOf x (bumpThrRise s) = ifgOf x s := rfl
@[simp] theorem ieOf_bumpThrRise (x : Line)  (s : State) : ieOf x (bumpThrRise s) = ieOf x s := rfl
@[simp] theorem iesOf_bumpThrRise (x : Line)  (s : State) : iesOf x (bumpThrRise s) = iesOf x s := rfl
@[simp] theorem pinOf_bumpThrFall (x : Line)  (s : State) : pinOf x (bumpThrFall s) = pinOf x s := rfl
@[simp] theorem ifgOf_bumpThrFall (x : Line)  (s : State) : ifgOf x (bumpThrFall s) = ifgOf x s := rfl
@[simp] theorem ieOf_bumpThrFall (x : Line)  (s : State) : ieOf x (bumpThrFall s) = ieOf x s := rfl
@[simp] theorem iesOf_bumpThrFall (x : Line)  (s : State) : iesOf x (bumpThrFall s) = iesOf x s := rfl
@[simp] theorem pinOf_pushTxFifo (x : Line) (b : Bytes) (s : State) : pinOf x (pushTxFifo b s) = pinOf x s := rfl
@[simp] theorem ifgOf_pushTxFifo (x : Line) (b : Bytes) (s : State) : ifgOf x (pushTxFifo b s) = ifgOf x s := rfl
@[simp] theorem ieOf_pushTxFifo (x : Line) (b : Bytes) (s : State) : ieOf x (pushTxFifo b s) = ieOf x s := rfl
@[simp] theorem iesOf_pushTxFifo (x : Line) (b : Bytes) (s : State) : iesOf x (pushTxFifo b s) = iesOf x s := rfl
@[simp] theorem pinOf_dropRxFifo (x : Line) (n : Nat) (s : State) : pinOf x (dropRxFifo n s) = pinOf x s := rfl
@[simp] theorem ifgOf_dropRxFifo (x : Line) (n : Nat) (s : State) : ifgOf x (dropRxFifo n s) = ifgOf x s := rfl
@[simp] theorem ieOf_dropRxFifo (x : Line) (n : Nat) (s : State) : ieOf x (dropRxFifo n s) = ieOf x s := rfl
@[simp] theorem iesOf_dropRxFifo (x : Line) (n : Nat) (s : State) : iesOf x (dropRxFifo n s) = iesOf x s := rfl
@[simp] theorem pinOf_zeroCounters (x : Line)  (s : State) : pinOf x (zeroCounters s) = pinOf x s := rfl
@[simp] theorem ifgOf_zeroCounters (x : Line)  (s : State) : ifgOf x (zeroCounters s) = ifgOf x s := rfl
@[simp] theorem ieOf_zeroCounters (x : Line)  (s : State) : ieOf x (zeroCounters s) = ieOf x s := rfl
@[simp] theorem iesOf_zeroCounters (x : Line)  (s : State) : iesOf x (zeroCounters s) = iesOf x s := rfl
@[simp] theorem pinOf_setMode (x : Line) (m : Mode) (s : State) : pinOf x (setMode m s) = pinOf x s := rfl
@[simp] theorem ifgOf_setMode (x : Line) (m : Mode) (s : State) : ifgOf x (setMode m s) = ifgOf x s := rfl
@[simp] theorem ieOf_setMode (x : Line) (m : Mode) (s : State) : ieOf x (setMode m s) = ieOf x s := rfl
@[simp] theorem iesOf_setMode (x : Line) (m : Mode) (s : State) : iesOf x (setMode m s) = iesOf x s := rfl
@[simp] theorem pinOf_strobeStartTx (x : Line)  (s : State) : pinOf x (strobeStartTx s) = pinOf x s := rfl
@[simp] theorem ifgOf_strobeStartTx (x : Line)  (s : State) : ifgOf x (strobeStartTx s) = ifgOf x s := rfl
@[simp] theorem ieOf_strobeStartTx (x : Line)  (s : State) : ieOf x (strobeStartTx s) = ieOf x s := rfl
@[simp] theorem iesOf_strobeStartTx (x : Line)  (s : State) : iesOf x (strobeStartTx s) = iesOf x s := rfl
@[simp] theorem pinOf_strobeStartRx (x : Line)  (s : State) : pinOf x (strobeStartRx s) = pinOf x s := rfl
@[simp] theorem ifgOf_strobeStartRx (x : Line)  (s : State) : ifgOf x (strobeStartRx s) = ifgOf x s := rfl
@[simp] theorem ieOf_strobeStartRx (x : Line)  (s : State) : ieOf x (strobeStartRx s) = ieOf x s := rfl
@[simp] theorem iesOf_strobeStartRx (x : Line)  (s : State) : iesOf x (strobeStartRx s) = iesOf x s := rfl
@[simp] theorem pinOf_respond (x : Line) (ty : BlockType) (p : Bytes) (s : State) : pinOf x (respond ty p s) = pinOf x s := rfl
@[simp] theorem ifgOf_respond (x : Line) (ty : BlockType) (p : Bytes) (s : State) : ifgOf x (respond ty p s) = ifgOf x s := rfl
@[simp] theorem ieOf_respond (x : Line) (ty : BlockType) (p : Bytes) (s : State) : ieOf x (respond ty p s) = ieOf x s := rfl
@[simp] theorem iesOf_respond (x : Line) (ty : BlockType) (p : Bytes) (s : State) : iesOf x (respond ty p s) = iesOf x s := rfl
@[simp] theorem pinOf_interruptEntry (x : Line)  (s : State) : pinOf x (interruptEntry s) = pinOf x s := rfl
@[simp] theorem ifgOf_interruptEntry (x : Line)  (s : State) : ifgOf x (interruptEntry s) = ifgOf x s := rfl
@[simp] theorem ieOf_interruptEntry (x : Line)  (s : State) : ieOf x (interruptEntry s) = ieOf x s := rfl
@[simp] theorem iesOf_interruptEntry (x : Line)  (s : State) : iesOf x (interruptEntry s) = iesOf x s := rfl
@[simp] theorem pinOf_trdClear (x : Line)  (s : State) : pinOf x (trdClear s) = pinOf x s := rfl
@[simp] theorem ifgOf_trdClear (x : Line)  (s : State) : ifgOf x (trdClear s) = ifgOf x s := rfl
@[simp] theorem ieOf_trdClear (x : Line)  (s : State) : ieOf x (trdClear s) = ieOf x s := rfl
@[simp] theorem iesOf_trdClear (x : Line)  (s : State) : iesOf x (trdClear s) = iesOf x s := rfl
@[simp] theorem pinOf_countFree (x : Line)  (s : State) : pinOf x (countFree s) = pinOf x s := rfl
@[simp] theorem ifgOf_countFree (x : Line)  (s : State) : ifgOf x (countFree s) = ifgOf x s := rfl
@[simp] theorem ieOf_countFree (x : Line)  (s : State) : ieOf x (countFree s) = ieOf x s := rfl
@[simp] theorem iesOf_countFree (x : Line)  (s : State) : iesOf x (countFree s) = iesOf x s := rfl

/-! Equality by fields -/

theorem state_ext {s t : State}
    (h0 : s.par = t.par) (h1 : s.now = t.now) (h2 : s.host = t.host) (h3 : s.dev = t.dev)
    (h4 : s.lH2D = t.lH2D) (h5 : s.lD2H = t.lD2H) (h6 : s.termIn = t.termIn) (h7 : s.termOut = t.termOut)
    (h8 : s.log = t.log) (h9 : s.radio = t.radio) (h10 : s.agenda = t.agenda) (h11 : s.freeCtr = t.freeCtr) :
    s = t := by
  cases s; cases t; subst h0 h1 h2 h3 h4 h5 h6 h7 h8 h9 h10 h11; rfl
theorem devHalf_ext {s t : DevHalf}
    (h0 : s.trd = t.trd) (h1 : s.outq = t.outq) (h2 : s.parms = t.parms) (h3 : s.inited = t.inited)
    (h4 : s.str = t.str) (h5 : s.gpio = t.gpio) (h6 : s.gie = t.gie) :
    s = t := by
  cases s; cases t; subst h0 h1 h2 h3 h4 h5 h6; rfl
theorem gpio_ext {s t : Gpio}
    (h0 : s.pin = t.pin) (h1 : s.ifg = t.ifg) (h2 : s.ie = t.ie) (h3 : s.ies = t.ies) :
    s = t := by
  cases s; cases t; subst h0 h1 h2 h3; rfl
theorem hostHalf_ext {s t : HostHalf}
    (h0 : s.sch = t.sch) (h1 : s.tnc = t.tnc) (h2 : s.cfg = t.cfg) (h3 : s.trh = t.trh)
    (h4 : s.seg = t.seg) (h5 : s.kiss = t.kiss) (h6 : s.ctl = t.ctl) (h7 : s.res = t.res) :
    s = t := by
  cases s; cases t; subst h0 h1 h2 h3 h4 h5 h6 h7; rfl
theorem str_ext {s t : Str}
    (h0 : s.mode = t.mode) (h1 : s.cntPktRise = t.cntPktRise) (h2 : s.cntPktFall = t.cntPktFall) (h3 : s.cntThrRise = t.cntThrRise)
    (h4 : s.cntThrFall = t.cntThrFall) (h5 : s.txbuf = t.txbuf) (h6 : s.txlen = t.txlen) (h7 : s.txpos = t.txpos)
    (h8 : s.rxbuf = t.rxbuf) (h9 : s.rxlen = t.rxlen) :
    s = t := by
  cases s; cases t; subst h0 h1 h2 h3 h4 h5 h6 h7 h8 h9; rfl

end Sys2Proof.Machine
end

