-- ==== Sys2Proof/Laws/Ops.lean ====
section
/-! SUPPORT. For each shared operation one lemma that says all it does. -/

namespace Sys2Proof.Machine

/-- `andThen` answers a next state only through both parts. -/
theorem andThen_next {o : Out} {k : State → Out} {t : State} (h : andThen o k = .next t) : ∃ u, o = .next u ∧ k u = .next t := by
  cases o with
  | next u => exact ⟨u, rfl, h⟩
  | fault _ => simp [andThen] at h
  | refused _ => simp [andThen] at h

@[simp] theorem andThen_of_next (s : State) (k : State → Out) : andThen (.next s) k = k s := rfl
@[simp] theorem andThen_of_fault (r : Fault) (k : State → Out) : andThen (.fault r) k = .fault r := rfl
@[simp] theorem andThen_of_refused (r : Refusal) (k : State → Out) : andThen (.refused r) k = .refused r := rfl

/-- All a change of a line's level does (R292). -/
theorem setLine_eq (x : Line) (level : Bool) (s : State) :
    setLine x level s =
      { s with
        dev.gpio.pin := withBit s.dev.gpio.pin (lineBit s.par x) level
        dev.gpio.ifg := if pinOf x s ≠ level ∧ iesOf x s = !level then withBit s.dev.gpio.ifg (lineBit s.par x) true
          else s.dev.gpio.ifg } := by
  unfold setLine
  by_cases h : pinOf x s = level
  · subst h; simp [pinOf]
  · simp only [h, if_false, ne_eq, not_false_eq_true, true_and]
    split <;> rfl

section
variable (x y : Line) (level : Bool) (s : State)
@[simp] theorem setLine_par : (setLine x level s).par = s.par := by rw [setLine_eq]
@[simp] theorem setLine_now : (setLine x level s).now = s.now := by rw [setLine_eq]
@[simp] theorem setLine_host : (setLine x level s).host = s.host := by rw [setLine_eq]
@[simp] theorem setLine_trd : (setLine x level s).dev.trd = s.dev.trd := by rw [setLine_eq]
@[simp] theorem setLine_outq : (setLine x level s).dev.outq = s.dev.outq := by rw [setLine_eq]
@[simp] theorem setLine_parms : (setLine x level s).dev.parms = s.dev.parms := by rw [setLine_eq]
@[simp] theorem setLine_inited : (setLine x level s).dev.inited = s.dev.inited := by rw [setLine_eq]
@[simp] theorem setLine_str : (setLine x level s).dev.str = s.dev.str := by rw [setLine_eq]
@[simp] theorem setLine_ie : (setLine x level s).dev.gpio.ie = s.dev.gpio.ie := by rw [setLine_eq]
@[simp] theorem setLine_ies : (setLine x level s).dev.gpio.ies = s.dev.gpio.ies := by rw [setLine_eq]
@[simp] theorem setLine_gie : (setLine x level s).dev.gie = s.dev.gie := by rw [setLine_eq]
@[simp] theorem setLine_lH2D : (setLine x level s).lH2D = s.lH2D := by rw [setLine_eq]
@[simp] theorem setLine_lD2H : (setLine x level s).lD2H = s.lD2H := by rw [setLine_eq]
@[simp] theorem setLine_termIn : (setLine x level s).termIn = s.termIn := by rw [setLine_eq]
@[simp] theorem setLine_termOut : (setLine x level s).termOut = s.termOut := by rw [setLine_eq]
@[simp] theorem setLine_log : (setLine x level s).log = s.log := by rw [setLine_eq]
@[simp] theorem setLine_radio : (setLine x level s).radio = s.radio := by rw [setLine_eq]
@[simp] theorem setLine_agenda : (setLine x level s).agenda = s.agenda := by rw [setLine_eq]
@[simp] theorem setLine_freeCtr : (setLine x level s).freeCtr = s.freeCtr := by rw [setLine_eq]
@[simp] theorem setLine_ieOf : ieOf y (setLine x level s) = ieOf y s := by rw [setLine_eq]; rfl
@[simp] theorem setLine_iesOf : iesOf y (setLine x level s) = iesOf y s := by rw [setLine_eq]; rfl
@[simp] theorem setLine_pin : (setLine x level s).dev.gpio.pin = withBit s.dev.gpio.pin (lineBit s.par x) level := by
  rw [setLine_eq]
theorem setLine_pinOf :
    pinOf y (setLine x level s) = if lineBit s.par y = lineBit s.par x then level else pinOf y s := by
  rw [setLine_eq]; simp [pinOf]
theorem setLine_ifgOf :
    ifgOf y (setLine x level s) =
      if lineBit s.par y = lineBit s.par x ∧ pinOf x s ≠ level ∧ iesOf x s = !level then true else ifgOf y s := by
  rw [setLine_eq]
  by_cases h : pinOf x s ≠ level ∧ iesOf x s = !level
  · simp only [ifgOf, h, ne_eq, not_false_eq_true, and_self, if_true, bitAt_withBit, and_true]
  · simp only [h, and_false, if_false, ifgOf]
/-- A change of a line's level leaves every flag bit but its own. -/
theorem setLine_ifg_other (n : Fin 8) (h : n ≠ lineBit s.par x) :
    bitAt (setLine x level s).dev.gpio.ifg n = bitAt s.dev.gpio.ifg n := by
  rw [setLine_eq]
  by_cases hc : pinOf x s ≠ level ∧ iesOf x s = !level <;> simp [hc, h]
/-- A flag written after the change holds what was written. -/
theorem withBit_setLine_ifg (b : Bool) :
    withBit (setLine x level s).dev.gpio.ifg (lineBit s.par x) b = withBit s.dev.gpio.ifg (lineBit s.par x) b := by
  rw [setLine_eq]
  by_cases hc : pinOf x s ≠ level ∧ iesOf x s = !level <;> simp [hc]
end

/-- A level follows a FIFO at once: `updateThr` is the threshold line taking its level (R301). -/
theorem updateThr_eq (s : State) : updateThr s = setLine .thr (thrLevel s) s := rfl

section
variable (s : State)
@[simp] theorem updateThr_par : (updateThr s).par = s.par := setLine_par ..
@[simp] theorem updateThr_now : (updateThr s).now = s.now := setLine_now ..
@[simp] theorem updateThr_host : (updateThr s).host = s.host := setLine_host ..
@[simp] theorem updateThr_trd : (updateThr s).dev.trd = s.dev.trd := setLine_trd ..
@[simp] theorem updateThr_outq : (updateThr s).dev.outq = s.dev.outq := setLine_outq ..
@[simp] theorem updateThr_parms : (updateThr s).dev.parms = s.dev.parms := setLine_parms ..
@[simp] theorem updateThr_inited : (updateThr s).dev.inited = s.dev.inited := setLine_inited ..
@[simp] theorem updateThr_str : (updateThr s).dev.str = s.dev.str := setLine_str ..
@[simp] theorem updateThr_ie : (updateThr s).dev.gpio.ie = s.dev.gpio.ie := setLine_ie ..
@[simp] theorem updateThr_ies : (updateThr s).dev.gpio.ies = s.dev.gpio.ies := setLine_ies ..
@[simp] theorem updateThr_gie : (updateThr s).dev.gie = s.dev.gie := setLine_gie ..
@[simp] theorem updateThr_lH2D : (updateThr s).lH2D = s.lH2D := setLine_lH2D ..
@[simp] theorem updateThr_lD2H : (updateThr s).lD2H = s.lD2H := setLine_lD2H ..
@[simp] theorem updateThr_termIn : (updateThr s).termIn = s.termIn := setLine_termIn ..
@[simp] theorem updateThr_termOut : (updateThr s).termOut = s.termOut := setLine_termOut ..
@[simp] theorem updateThr_log : (updateThr s).log = s.log := setLine_log ..
@[simp] theorem updateThr_radio : (updateThr s).radio = s.radio := setLine_radio ..
@[simp] theorem updateThr_agenda : (updateThr s).agenda = s.agenda := setLine_agenda ..
@[simp] theorem updateThr_freeCtr : (updateThr s).freeCtr = s.freeCtr := setLine_freeCtr ..
@[simp] theorem updateThr_ieOf (y : Line) : ieOf y (updateThr s) = ieOf y s := setLine_ieOf ..
@[simp] theorem updateThr_iesOf (y : Line) : iesOf y (updateThr s) = iesOf y s := setLine_iesOf ..
@[simp] theorem updateThr_pin :
    (updateThr s).dev.gpio.pin = withBit s.dev.gpio.pin s.par.thrBit (thrLevel s) := setLine_pin ..
@[simp] theorem updateThr_thrLevel : thrLevel (updateThr s) = thrLevel s := by simp [thrLevel]
theorem updateThr_ifg_other (n : Fin 8) (h : n ≠ s.par.thrBit) :
    bitAt (updateThr s).dev.gpio.ifg n = bitAt s.dev.gpio.ifg n := setLine_ifg_other .thr _ s n h
@[simp] theorem withBit_updateThr_ifg (b : Bool) :
    withBit (updateThr s).dev.gpio.ifg s.par.thrBit b = withBit s.dev.gpio.ifg s.par.thrBit b := withBit_setLine_ifg .thr _ s b
@[simp] theorem clearLines_updateThr_ifg :
    clearLines s.par (updateThr s).dev.gpio.ifg = clearLines s.par s.dev.gpio.ifg := by
  apply byte_ext; intro n
  by_cases h : n = s.par.pktBit ∨ n = s.par.thrBit
  · simp [h]
  · simp only [bitAt_clearLines, h, if_false]
    exact updateThr_ifg_other s n fun e => h (.inr e)
/-- After the update the line has the level R301 gives it. -/
theorem updateThr_pinOf : pinOf .thr (updateThr s) = thrLevel (updateThr s) := by
  rw [updateThr_thrLevel]; simp [updateThr_eq, setLine_pinOf]
end

/-- All `FifoWrite` does (R63). -/
theorem fifoWrite_next {b : Bytes} {s t : State} (h : fifoWrite b s = .next t) :
    fitsTxFifo b s ∧ t = updateThr (pushTxFifo b s) := by
  unfold fifoWrite txCount at h
  split at h
  · next hf => exact ⟨hf, by injection h with h; exact h.symm⟩
  · simp at h

theorem fifoWrite_of_fits {b : Bytes} {s : State} (h : fitsTxFifo b s) :
    fifoWrite b s = .next (updateThr (pushTxFifo b s)) := if_pos h

theorem fifoWrite_of_not_fits {b : Bytes} {s : State} (h : ¬fitsTxFifo b s) : fifoWrite b s = .fault .fifoOverfill := if_neg h

/-- A drain whose size is bounded by the FIFO's count never faults (R156, R158). -/
theorem drainInto_of_le {n : Nat} {s : State} (h : n ≤ rxCount s) (k : State → Out) :
    drainInto n s k =
      k (appendRxBuf (s.radio.rxFifo.take n) (updateThr (dropRxFifo n s))) := by
  unfold drainInto fifoRead
  rw [if_pos h]

/-- All `STOP_LINES` does (R166). -/
theorem stopLinesOp_eq (s : State) :
    stopLinesOp s =
      { s with dev.gpio.ie := clearLines s.par s.dev.gpio.ie, dev.gpio.ifg := clearLines s.par s.dev.gpio.ifg } := rfl

/-- After a power-up no bit of the four GPIO registers is set (R39). -/
@[simp] theorem pinOf_powerUp (x : Line) (s : State) : pinOf x (powerUp s) = false := by
  simp [pinOf, bitAt, DevHalf.reset]
@[simp] theorem ifgOf_powerUp (x : Line) (s : State) : ifgOf x (powerUp s) = false := by
  simp [ifgOf, bitAt, DevHalf.reset]
@[simp] theorem ieOf_powerUp (x : Line) (s : State) : ieOf x (powerUp s) = false := by
  simp [ieOf, bitAt, DevHalf.reset]
@[simp] theorem iesOf_powerUp (x : Line) (s : State) : iesOf x (powerUp s) = false := by
  simp [iesOf, bitAt, DevHalf.reset]

/-- After a power-up both FIFOs are empty, so the threshold line's level is low unless a threshold is 0 (R301). -/
theorem thrLevel_powerUp (s : State) (ht : 1 ≤ s.par.txThr) (hr : 1 ≤ s.par.rxThr) : thrLevel (powerUp s) = false := by
  unfold thrLevel
  rw [powerUp_radio, powerUp_par]
  simp; omega

/-- All `COMPOSE_STATUS` does: the block it appends shows the counters, and registers read as R34 says. -/
theorem composeStatusOp_eq (ty : BlockType) (st : Byte) (s : State) :
    ∃ r, RegistersRead s r ∧
      composeStatusOp ty st s =
        { s with dev.outq := s.dev.outq ++ [statusBlock ty st s r], freeCtr := s.freeCtr + 4 } := by
  refine ⟨(readReg s.dev.gpio.pin s, readReg s.dev.gpio.ifg (countFree s), readReg s.dev.gpio.ie (countFree (countFree s)),
    readReg s.dev.gpio.ies (countFree (countFree (countFree s)))), ⟨?_, ?_, ?_, ?_⟩, ?_⟩
  · exact readReg_readsAs _ s
  · exact readReg_readsAs _ (countFree s)
  · exact readReg_readsAs _ (countFree (countFree s))
  · exact readReg_readsAs _ (countFree (countFree (countFree s)))
  · rfl

/-- All `CLEAR_STATE` does, for either side (R227). -/
@[simp] theorem clearStateOp_r (s : State) :
    clearStateOp .r s =
      { s with host.sch.rbuf := [], host.sch.rxtrig := false, host.sch.txtrig := false, host.sch.tri := .idle } := rfl
@[simp] theorem clearStateOp_t (s : State) :
    clearStateOp .t s =
      { s with host.sch.tbuf := [], host.sch.rxtrig := false, host.sch.txtrig := false, host.sch.tri := .idle } := rfl

/-- Taking an interrupt that is not enabled does nothing (R294). -/
theorem takeInterrupt_of_not (x : Line) (f : Event → State → Out) (s : State) (h : isrEnabled x s = false) :
    takeInterrupt x f s = .next s := by simp [takeInterrupt, h]

/-- Taking an enabled interrupt: the handler runs with `GIE` = 0 on the edge `IES` names, then the flag is cleared and `GIE`
set (R294, R295). -/
theorem takeInterrupt_of_enabled (x : Line) (f : Event → State → Out) (s : State) (h : isrEnabled x s = true) :
    takeInterrupt x f s =
      andThen (f (interruptEvent x s) (interruptEntry s)) fun s' => .next (interruptReturn x s') := by
  simp [takeInterrupt, h]

end Sys2Proof.Machine
end

