-- ==== Sys2Proof/Laws/Kiss.lean ====
section
/-! SUPPORT. The framer's shared operations: what a byte of the reader, a configuration command and a frame can change. -/

namespace Sys2Proof.Machine

/-- A byte of the reader changes only its two variables (R191). -/
theorem kissByte_frame (b : Byte) (s : State) :
    kissByte b s = { s with host.kiss.out := (kissByte b s).host.kiss.out, host.kiss.esc := (kissByte b s).host.kiss.esc } := by
  simp only [kissByte, onFend, onFesc, onTfend, onTfesc, kissEmit]
  repeat' split
  all_goals rfl

/-- A configuration command changes only the TNC registers and `HALT` (R196 to R201). -/
theorem applyConfig_frame (cmd : Nibble) (value : Option Byte) (s : State) :
    applyConfig cmd value s = { s with host.tnc := (applyConfig cmd value s).host.tnc
                                       host.sch.halt := (applyConfig cmd value s).host.sch.halt } := by
  simp only [applyConfig, setKeyup, setPersist, setSlottime, setKeydown, setHalt]
  repeat' split
  all_goals rfl

/-- A frame changes only the TNC registers, `HALT` and the framer's variables (R202). -/
theorem kissFrame_frame (f : Bytes) (s : State) :
    kissFrame f s = { s with host.tnc := (kissFrame f s).host.tnc
                             host.sch.halt := (kissFrame f s).host.sch.halt
                             host.kiss := (kissFrame f s).host.kiss } := by
  simp only [kissFrame, keepFrame]
  split
  · rfl
  · rw [applyConfig_frame]
  · rfl

/-- A token leaves a shorter buffer that starts with the delimiter (R190). -/
theorem tokenize_rest {buf frame rest : Bytes} (h : tokenize buf = some (frame, rest)) :
    rest.length < buf.length ∧ rest.head? = some FEND := by
  unfold tokenize at h
  split at h
  · cases h
  · rename_i b tl
    split at h
    · rename_i hb
      simp only at h
      split at h
      · cases h
      · rename_i hne
        injection h with h; injection h with _ h
        have e : ((b :: tl).dropWhile (· == FEND)) = tl.dropWhile (· == FEND) := by simp [hb]
        rw [e] at h hne
        have l1 := (List.dropWhile_sublist (l := tl) (· == FEND)).length_le
        have l2 := (List.dropWhile_sublist (l := tl.dropWhile (· == FEND)) (· != FEND)).length_le
        refine ⟨by rw [← h]; simp only [List.length_cons]; omega, ?_⟩
        rw [← h]
        have hn : (tl.dropWhile (· == FEND)).dropWhile (· != FEND) ≠ [] := by
          intro e; apply hne; rw [e]; rfl
        have := List.head_dropWhile_not (fun b : Byte => b != FEND) hn
        rw [List.head?_eq_some_head hn]
        simpa using this
    · cases h

end Sys2Proof.Machine
end

