-- ==== Sys2Proof/Laws/Operands.lean ====
section
/-! SUPPORT. The laws of the named buffers: reading after writing, and what a write leaves. -/

namespace Sys2Proof.Machine

/-- A buffer reads as what was stored in it. -/
@[simp] theorem bufferOf_setBuffer (sp : Buffer) (b : Bytes) (s : State) : bufferOf sp (setBuffer sp b s) = b := by
  cases sp <;> rfl

/-- Storing in a buffer leaves every other buffer. -/
theorem bufferOf_setBuffer_other {sp q : Buffer} (h : q ≠ sp) (b : Bytes) (s : State) :
    bufferOf q (setBuffer sp b s) = bufferOf q s := by
  cases sp <;> cases q <;> first | rfl | exact absurd rfl h

/-- All `MemWrite` does to its buffer: the bytes at the index are replaced, the rest stay. -/
theorem bufferOf_memWrite (sp : Buffer) (addr : Nat) (v : Bytes) (s : State) :
    bufferOf sp (memWrite sp addr v s) = (bufferOf sp s).take addr ++ v ++ (bufferOf sp s).drop (addr + v.length) := by
  simp [memWrite]

/-- A byte inside the stored range reads as what was stored. -/
theorem byteAt_memWrite_inside (sp : Buffer) (addr k : Nat) (v : Bytes) (s : State) (ha : addr ≤ (bufferOf sp s).length)
    (hk : k < v.length) : byteAt sp (addr + k) (memWrite sp addr v s) = v[k]? := by
  unfold byteAt
  rw [bufferOf_memWrite, List.append_assoc, List.getElem?_append_right (by simp)]
  have e : addr + k - ((bufferOf sp s).take addr).length = k := by simp; omega
  rw [e, List.getElem?_append_left hk]

/-- A byte outside the stored range reads as before. -/
theorem byteAt_memWrite_outside (sp : Buffer) (addr a : Nat) (v : Bytes) (s : State) (ha : addr ≤ (bufferOf sp s).length)
    (h : a < addr ∨ addr + v.length ≤ a) : byteAt sp a (memWrite sp addr v s) = byteAt sp a s := by
  unfold byteAt
  rw [bufferOf_memWrite]
  rcases h with h | h
  · rw [List.append_assoc, List.getElem?_append_left (by simp; omega), List.getElem?_take, if_pos h]
  · rw [List.getElem?_append_right (by simp; omega), List.getElem?_drop]
    congr 1; simp; omega

/-- `MemRead` reads back what `MemWrite` stored. -/
theorem memRead_memWrite (sp : Buffer) (addr : Nat) (v : Bytes) (s : State) (ha : addr ≤ (bufferOf sp s).length) :
    memRead sp addr v.length (memWrite sp addr v s) = v := by
  unfold memRead
  rw [bufferOf_memWrite, List.append_assoc, List.drop_append_of_le_length (by simp; omega)]
  simp

/-- An append goes to the end of its buffer. -/
@[simp] theorem bufferOf_appendBuffer (sp : Buffer) (d : Bytes) (s : State) :
    bufferOf sp (appendBuffer sp d s) = bufferOf sp s ++ d := by
  simp [appendBuffer, bufferOf_memWrite]

/-- The radio-side buffer after an append. -/
theorem appendBuffer_rbuf (d : Bytes) (s : State) :
    appendBuffer .rbuf d s = { s with host.sch.rbuf := s.host.sch.rbuf ++ d } := by
  simp [appendBuffer, memWrite, setBuffer, bufferOf]

/-- The terminal-side buffer after an append. -/
theorem appendBuffer_tbuf (d : Bytes) (s : State) :
    appendBuffer .tbuf d s = { s with host.sch.tbuf := s.host.sch.tbuf ++ d } := by
  simp [appendBuffer, memWrite, setBuffer, bufferOf]

/-- The assembly buffer after an append. -/
theorem appendBuffer_asm (d : Bytes) (s : State) :
    appendBuffer .asm d s = { s with host.seg.asm := s.host.seg.asm ++ d } := by
  simp [appendBuffer, memWrite, setBuffer, bufferOf]

end Sys2Proof.Machine
end

