-- ==== Sys2Proof/Laws/Streamer.lean ====
section
/-! SUPPORT. The streamer's operations: for each, what it leaves in every field, or the state it answers in closed form, and when it
faults; and what `STR_STEP` can do to the parts of the machine that are not the streamer's. -/

namespace Sys2Proof.Machine

/-! ## The strobes -/

@[simp] theorem strobeAbort_par (s : State) : (strobeAbort s).par = s.par := by simp [strobeAbort]
@[simp] theorem strobeAbort_now (s : State) : (strobeAbort s).now = s.now := by simp [strobeAbort]
@[simp] theorem strobeAbort_host (s : State) : (strobeAbort s).host = s.host := by simp [strobeAbort]
@[simp] theorem strobeAbort_trd (s : State) : (strobeAbort s).dev.trd = s.dev.trd := by simp [strobeAbort]
@[simp] theorem strobeAbort_outq (s : State) : (strobeAbort s).dev.outq = s.dev.outq := by simp [strobeAbort]
@[simp] theorem strobeAbort_parms (s : State) : (strobeAbort s).dev.parms = s.dev.parms := by simp [strobeAbort]
@[simp] theorem strobeAbort_inited (s : State) : (strobeAbort s).dev.inited = s.dev.inited := by simp [strobeAbort]
@[simp] theorem strobeAbort_str (s : State) : (strobeAbort s).dev.str = s.dev.str := by simp [strobeAbort]
@[simp] theorem strobeAbort_ie (s : State) : (strobeAbort s).dev.gpio.ie = s.dev.gpio.ie := by simp [strobeAbort]
@[simp] theorem strobeAbort_ies (s : State) : (strobeAbort s).dev.gpio.ies = s.dev.gpio.ies := by simp [strobeAbort]
@[simp] theorem strobeAbort_gie (s : State) : (strobeAbort s).dev.gie = s.dev.gie := by simp [strobeAbort]
@[simp] theorem strobeAbort_lH2D (s : State) : (strobeAbort s).lH2D = s.lH2D := by simp [strobeAbort]
@[simp] theorem strobeAbort_lD2H (s : State) : (strobeAbort s).lD2H = s.lD2H := by simp [strobeAbort]
@[simp] theorem strobeAbort_termIn (s : State) : (strobeAbort s).termIn = s.termIn := by simp [strobeAbort]
@[simp] theorem strobeAbort_termOut (s : State) : (strobeAbort s).termOut = s.termOut := by simp [strobeAbort]
@[simp] theorem strobeAbort_log (s : State) : (strobeAbort s).log = s.log := by simp [strobeAbort]
@[simp] theorem strobeAbort_agenda (s : State) : (strobeAbort s).agenda = s.agenda := by simp [strobeAbort]
@[simp] theorem strobeAbort_freeCtr (s : State) : (strobeAbort s).freeCtr = s.freeCtr := by simp [strobeAbort]
@[simp] theorem strobeAbort_pin (s : State) : (strobeAbort s).dev.gpio.pin = clearLines s.par s.dev.gpio.pin := by
  apply byte_ext; intro n
  simp [strobeAbort]; by_cases h1 : n = s.par.thrBit <;> by_cases h2 : n = s.par.pktBit <;> simp [h1, h2]
@[simp] theorem strobeAbort_radio (s : State) : (strobeAbort s).radio =
    { s.radio with rstate := .idle, txFifo := [], rxFifo := [], txUnf := false, rxOvf := false } := by simp [strobeAbort]
/-- Both lines go low; a line that was high and selects its falling edge sets its flag (R292, R301). -/
theorem strobeAbort_ifgOf (s : State) (h : s.par.pktBit ≠ s.par.thrBit) (x : Line) :
    ifgOf x (strobeAbort s) = (ifgOf x s || (pinOf x s && iesOf x s)) := by
  cases x <;> simp [strobeAbort, setLine_ifgOf, setLine_pinOf, h, Ne.symm h] <;> simp [ifgOf, pinOf, iesOf] <;>
    exact Bool.or_comm _ _
/-- No other flag bit changes. -/
theorem strobeAbort_ifg_other (s : State) (n : Fin 8) (h1 : n ≠ s.par.pktBit) (h2 : n ≠ s.par.thrBit) :
    bitAt (strobeAbort s).dev.gpio.ifg n = bitAt s.dev.gpio.ifg n := by
  simp only [strobeAbort, setLine_eq]
  split <;> split <;> simp [h1, h2]

@[simp] theorem strobeFlushTx_par (s : State) : (strobeFlushTx s).par = s.par := by simp [strobeFlushTx]
@[simp] theorem strobeFlushTx_now (s : State) : (strobeFlushTx s).now = s.now := by simp [strobeFlushTx]
@[simp] theorem strobeFlushTx_host (s : State) : (strobeFlushTx s).host = s.host := by simp [strobeFlushTx]
@[simp] theorem strobeFlushTx_trd (s : State) : (strobeFlushTx s).dev.trd = s.dev.trd := by simp [strobeFlushTx]
@[simp] theorem strobeFlushTx_outq (s : State) : (strobeFlushTx s).dev.outq = s.dev.outq := by simp [strobeFlushTx]
@[simp] theorem strobeFlushTx_parms (s : State) : (strobeFlushTx s).dev.parms = s.dev.parms := by simp [strobeFlushTx]
@[simp] theorem strobeFlushTx_inited (s : State) : (strobeFlushTx s).dev.inited = s.dev.inited := by simp [strobeFlushTx]
@[simp] theorem strobeFlushTx_str (s : State) : (strobeFlushTx s).dev.str = s.dev.str := by simp [strobeFlushTx]
@[simp] theorem strobeFlushTx_ie (s : State) : (strobeFlushTx s).dev.gpio.ie = s.dev.gpio.ie := by simp [strobeFlushTx]
@[simp] theorem strobeFlushTx_ies (s : State) : (strobeFlushTx s).dev.gpio.ies = s.dev.gpio.ies := by simp [strobeFlushTx]
@[simp] theorem strobeFlushTx_gie (s : State) : (strobeFlushTx s).dev.gie = s.dev.gie := by simp [strobeFlushTx]
@[simp] theorem strobeFlushTx_lH2D (s : State) : (strobeFlushTx s).lH2D = s.lH2D := by simp [strobeFlushTx]
@[simp] theorem strobeFlushTx_lD2H (s : State) : (strobeFlushTx s).lD2H = s.lD2H := by simp [strobeFlushTx]
@[simp] theorem strobeFlushTx_termIn (s : State) : (strobeFlushTx s).termIn = s.termIn := by simp [strobeFlushTx]
@[simp] theorem strobeFlushTx_termOut (s : State) : (strobeFlushTx s).termOut = s.termOut := by simp [strobeFlushTx]
@[simp] theorem strobeFlushTx_log (s : State) : (strobeFlushTx s).log = s.log := by simp [strobeFlushTx]
@[simp] theorem strobeFlushTx_agenda (s : State) : (strobeFlushTx s).agenda = s.agenda := by simp [strobeFlushTx]
@[simp] theorem strobeFlushTx_freeCtr (s : State) : (strobeFlushTx s).freeCtr = s.freeCtr := by simp [strobeFlushTx]
@[simp] theorem strobeFlushTx_radio (s : State) : (strobeFlushTx s).radio = { s.radio with txFifo := [], txUnf := false } := by simp [strobeFlushTx]
@[simp] theorem strobeFlushTx_pin (s : State) : (strobeFlushTx s).dev.gpio.pin =
    withBit s.dev.gpio.pin s.par.thrBit (thrLevel (strobeFlushTx s)) := by
  simp [strobeFlushTx]

@[simp] theorem strobeFlushRx_par (s : State) : (strobeFlushRx s).par = s.par := by simp [strobeFlushRx]
@[simp] theorem strobeFlushRx_now (s : State) : (strobeFlushRx s).now = s.now := by simp [strobeFlushRx]
@[simp] theorem strobeFlushRx_host (s : State) : (strobeFlushRx s).host = s.host := by simp [strobeFlushRx]
@[simp] theorem strobeFlushRx_trd (s : State) : (strobeFlushRx s).dev.trd = s.dev.trd := by simp [strobeFlushRx]
@[simp] theorem strobeFlushRx_outq (s : State) : (strobeFlushRx s).dev.outq = s.dev.outq := by simp [strobeFlushRx]
@[simp] theorem strobeFlushRx_parms (s : State) : (strobeFlushRx s).dev.parms = s.dev.parms := by simp [strobeFlushRx]
@[simp] theorem strobeFlushRx_inited (s : State) : (strobeFlushRx s).dev.inited = s.dev.inited := by simp [strobeFlushRx]
@[simp] theorem strobeFlushRx_str (s : State) : (strobeFlushRx s).dev.str = s.dev.str := by simp [strobeFlushRx]
@[simp] theorem strobeFlushRx_ie (s : State) : (strobeFlushRx s).dev.gpio.ie = s.dev.gpio.ie := by simp [strobeFlushRx]
@[simp] theorem strobeFlushRx_ies (s : State) : (strobeFlushRx s).dev.gpio.ies = s.dev.gpio.ies := by simp [strobeFlushRx]
@[simp] theorem strobeFlushRx_gie (s : State) : (strobeFlushRx s).dev.gie = s.dev.gie := by simp [strobeFlushRx]
@[simp] theorem strobeFlushRx_lH2D (s : State) : (strobeFlushRx s).lH2D = s.lH2D := by simp [strobeFlushRx]
@[simp] theorem strobeFlushRx_lD2H (s : State) : (strobeFlushRx s).lD2H = s.lD2H := by simp [strobeFlushRx]
@[simp] theorem strobeFlushRx_termIn (s : State) : (strobeFlushRx s).termIn = s.termIn := by simp [strobeFlushRx]
@[simp] theorem strobeFlushRx_termOut (s : State) : (strobeFlushRx s).termOut = s.termOut := by simp [strobeFlushRx]
@[simp] theorem strobeFlushRx_log (s : State) : (strobeFlushRx s).log = s.log := by simp [strobeFlushRx]
@[simp] theorem strobeFlushRx_agenda (s : State) : (strobeFlushRx s).agenda = s.agenda := by simp [strobeFlushRx]
@[simp] theorem strobeFlushRx_freeCtr (s : State) : (strobeFlushRx s).freeCtr = s.freeCtr := by simp [strobeFlushRx]
@[simp] theorem strobeFlushRx_radio (s : State) : (strobeFlushRx s).radio = { s.radio with rxFifo := [], rxOvf := false } := by simp [strobeFlushRx]
@[simp] theorem strobeFlushRx_pin (s : State) : (strobeFlushRx s).dev.gpio.pin =
    withBit s.dev.gpio.pin s.par.thrBit (thrLevel (strobeFlushRx s)) := by
  simp [strobeFlushRx]


/-! ## `TX_START` (R151) -/

/-- All the arming of `TX_START` does. -/
theorem txArm_eq (s : State) :
    txArm s =
      { s with
        dev.gpio :=
          { pin := s.dev.gpio.pin
            ifg := withBit (withBit s.dev.gpio.ifg s.par.pktBit false) s.par.thrBit false
            ie := withBit (withBit s.dev.gpio.ie s.par.pktBit true) s.par.thrBit (decide (s.dev.str.txpos < s.dev.str.txlen))
            ies := if s.dev.str.txpos < s.dev.str.txlen then
                withBit (withBit s.dev.gpio.ies s.par.pktBit false) s.par.thrBit true
              else withBit s.dev.gpio.ies s.par.pktBit false } } := by
  unfold txArm
  by_cases h : s.dev.str.txpos < s.dev.str.txlen <;> simp only [setIe_str, setIfg_str, setIes_str, h, if_true, if_false] <;>
    apply state_ext <;> simp only [setIe_par, setIe_now, setIe_host, setIe_lH2D] <;> try simp
  all_goals apply devHalf_ext <;> simp
  all_goals apply gpio_ext <;> simp

@[simp] theorem txArm_par (s : State) : (txArm s).par = s.par := by rw [txArm_eq]
@[simp] theorem txArm_now (s : State) : (txArm s).now = s.now := by rw [txArm_eq]
@[simp] theorem txArm_host (s : State) : (txArm s).host = s.host := by rw [txArm_eq]
@[simp] theorem txArm_trd (s : State) : (txArm s).dev.trd = s.dev.trd := by rw [txArm_eq]
@[simp] theorem txArm_outq (s : State) : (txArm s).dev.outq = s.dev.outq := by rw [txArm_eq]
@[simp] theorem txArm_parms (s : State) : (txArm s).dev.parms = s.dev.parms := by rw [txArm_eq]
@[simp] theorem txArm_inited (s : State) : (txArm s).dev.inited = s.dev.inited := by rw [txArm_eq]
@[simp] theorem txArm_str (s : State) : (txArm s).dev.str = s.dev.str := by rw [txArm_eq]
@[simp] theorem txArm_pin (s : State) : (txArm s).dev.gpio.pin = s.dev.gpio.pin := by rw [txArm_eq]
@[simp] theorem txArm_gie (s : State) : (txArm s).dev.gie = s.dev.gie := by rw [txArm_eq]
@[simp] theorem txArm_lH2D (s : State) : (txArm s).lH2D = s.lH2D := by rw [txArm_eq]
@[simp] theorem txArm_lD2H (s : State) : (txArm s).lD2H = s.lD2H := by rw [txArm_eq]
@[simp] theorem txArm_termIn (s : State) : (txArm s).termIn = s.termIn := by rw [txArm_eq]
@[simp] theorem txArm_termOut (s : State) : (txArm s).termOut = s.termOut := by rw [txArm_eq]
@[simp] theorem txArm_log (s : State) : (txArm s).log = s.log := by rw [txArm_eq]
@[simp] theorem txArm_radio (s : State) : (txArm s).radio = s.radio := by rw [txArm_eq]
@[simp] theorem txArm_agenda (s : State) : (txArm s).agenda = s.agenda := by rw [txArm_eq]
@[simp] theorem txArm_freeCtr (s : State) : (txArm s).freeCtr = s.freeCtr := by rw [txArm_eq]
@[simp] theorem txArm_ifg (s : State) :
    (txArm s).dev.gpio.ifg = withBit (withBit s.dev.gpio.ifg s.par.pktBit false) s.par.thrBit false := by rw [txArm_eq]
@[simp] theorem txArm_ie (s : State) : (txArm s).dev.gpio.ie =
    withBit (withBit s.dev.gpio.ie s.par.pktBit true) s.par.thrBit (decide (s.dev.str.txpos < s.dev.str.txlen)) := by
  rw [txArm_eq]
@[simp] theorem txArm_ies (s : State) : (txArm s).dev.gpio.ies =
    if s.dev.str.txpos < s.dev.str.txlen then withBit (withBit s.dev.gpio.ies s.par.pktBit false) s.par.thrBit true
    else withBit s.dev.gpio.ies s.par.pktBit false := by rw [txArm_eq]

/-- The state `TX_START` leaves when the first bytes fit the FIFO. -/
theorem txSetup_of_fits (p : Bytes) (s : State) (h : fitsTxFifo (txHead p s) s) :
    txSetup p s = .next (strobeStartTx (setMode .txStreaming (txArm (setTxPos (min p.length (s.par.fifoSize - 1))
      (updateThr (pushTxFifo (txHead p s) (setTxBuf p (zeroCounters s)))))))) := by
  have e : memRead .txbuf 0 (initialLoad (setTxBuf p (zeroCounters s))) (setTxBuf p (zeroCounters s)) = txHead p s := rfl
  have h' : fitsTxFifo (txHead p s) (setTxBuf p (zeroCounters s)) := h
  unfold txSetup
  simp only [e]
  rw [fifoWrite_of_fits h', andThen_of_next]; rfl

/-- First bytes that do not fit are the fault of R63. -/
theorem txSetup_of_not_fits (p : Bytes) (s : State) (h : ¬fitsTxFifo (txHead p s) s) :
    txSetup p s = .fault .fifoOverfill := by
  have e : memRead .txbuf 0 (initialLoad (setTxBuf p (zeroCounters s))) (setTxBuf p (zeroCounters s)) = txHead p s := rfl
  have h' : ¬fitsTxFifo (txHead p s) (setTxBuf p (zeroCounters s)) := h
  unfold txSetup
  simp only [e]
  rw [fifoWrite_of_not_fits h', andThen_of_fault]

/-! ## `RX_START` (R152) -/

@[simp] theorem rxSetup_par (b : Byte) (s : State) : (rxSetup b s).par = s.par := by simp [rxSetup]
@[simp] theorem rxSetup_now (b : Byte) (s : State) : (rxSetup b s).now = s.now := by simp [rxSetup]
@[simp] theorem rxSetup_host (b : Byte) (s : State) : (rxSetup b s).host = s.host := by simp [rxSetup]
@[simp] theorem rxSetup_trd (b : Byte) (s : State) : (rxSetup b s).dev.trd = s.dev.trd := by simp [rxSetup]
@[simp] theorem rxSetup_outq (b : Byte) (s : State) : (rxSetup b s).dev.outq = s.dev.outq := by simp [rxSetup]
@[simp] theorem rxSetup_parms (b : Byte) (s : State) : (rxSetup b s).dev.parms = s.dev.parms := by simp [rxSetup]
@[simp] theorem rxSetup_inited (b : Byte) (s : State) : (rxSetup b s).dev.inited = s.dev.inited := by simp [rxSetup]
@[simp] theorem rxSetup_pin (b : Byte) (s : State) : (rxSetup b s).dev.gpio.pin = s.dev.gpio.pin := by simp [rxSetup]
@[simp] theorem rxSetup_gie (b : Byte) (s : State) : (rxSetup b s).dev.gie = s.dev.gie := by simp [rxSetup]
@[simp] theorem rxSetup_lH2D (b : Byte) (s : State) : (rxSetup b s).lH2D = s.lH2D := by simp [rxSetup]
@[simp] theorem rxSetup_lD2H (b : Byte) (s : State) : (rxSetup b s).lD2H = s.lD2H := by simp [rxSetup]
@[simp] theorem rxSetup_termIn (b : Byte) (s : State) : (rxSetup b s).termIn = s.termIn := by simp [rxSetup]
@[simp] theorem rxSetup_termOut (b : Byte) (s : State) : (rxSetup b s).termOut = s.termOut := by simp [rxSetup]
@[simp] theorem rxSetup_log (b : Byte) (s : State) : (rxSetup b s).log = s.log := by simp [rxSetup]
@[simp] theorem rxSetup_agenda (b : Byte) (s : State) : (rxSetup b s).agenda = s.agenda := by simp [rxSetup]
@[simp] theorem rxSetup_freeCtr (b : Byte) (s : State) : (rxSetup b s).freeCtr = s.freeCtr := by simp [rxSetup]
@[simp] theorem rxSetup_str (b : Byte) (s : State) : (rxSetup b s).dev.str =
    { s.dev.str with mode := .rxStreaming, cntPktRise := 0, cntPktFall := 0, cntThrRise := 0, cntThrFall := 0, rxbuf := [],
                     rxlen := b } := by apply str_ext <;> simp [rxSetup]
@[simp] theorem rxSetup_ifg (b : Byte) (s : State) : (rxSetup b s).dev.gpio.ifg = clearLines s.par s.dev.gpio.ifg := by
  simp [rxSetup, clearLines]
@[simp] theorem rxSetup_ie (b : Byte) (s : State) : (rxSetup b s).dev.gpio.ie =
    withBit (withBit s.dev.gpio.ie s.par.pktBit true) s.par.thrBit true := by simp [rxSetup]
@[simp] theorem rxSetup_ies (b : Byte) (s : State) : (rxSetup b s).dev.gpio.ies = clearLines s.par s.dev.gpio.ies := by
  simp [rxSetup, clearLines]
@[simp] theorem rxSetup_radio (b : Byte) (s : State) : (rxSetup b s).radio =
    { s.radio with rstate := .rx, inPkt := false } := by simp [rxSetup]

/-! ## `CANCEL` (R159) -/

@[simp] theorem cancelStep_par (s : State) : (cancelStep s).par = s.par := by simp [cancelStep]
@[simp] theorem cancelStep_now (s : State) : (cancelStep s).now = s.now := by simp [cancelStep]
@[simp] theorem cancelStep_host (s : State) : (cancelStep s).host = s.host := by simp [cancelStep]
@[simp] theorem cancelStep_trd (s : State) : (cancelStep s).dev.trd = s.dev.trd := by simp [cancelStep]
@[simp] theorem cancelStep_outq (s : State) : (cancelStep s).dev.outq = s.dev.outq := by simp [cancelStep]
@[simp] theorem cancelStep_parms (s : State) : (cancelStep s).dev.parms = s.dev.parms := by simp [cancelStep]
@[simp] theorem cancelStep_inited (s : State) : (cancelStep s).dev.inited = s.dev.inited := by simp [cancelStep]
@[simp] theorem cancelStep_ies (s : State) : (cancelStep s).dev.gpio.ies = s.dev.gpio.ies := by simp [cancelStep]
@[simp] theorem cancelStep_gie (s : State) : (cancelStep s).dev.gie = s.dev.gie := by simp [cancelStep]
@[simp] theorem cancelStep_lH2D (s : State) : (cancelStep s).lH2D = s.lH2D := by simp [cancelStep]
@[simp] theorem cancelStep_lD2H (s : State) : (cancelStep s).lD2H = s.lD2H := by simp [cancelStep]
@[simp] theorem cancelStep_termIn (s : State) : (cancelStep s).termIn = s.termIn := by simp [cancelStep]
@[simp] theorem cancelStep_termOut (s : State) : (cancelStep s).termOut = s.termOut := by simp [cancelStep]
@[simp] theorem cancelStep_log (s : State) : (cancelStep s).log = s.log := by simp [cancelStep]
@[simp] theorem cancelStep_agenda (s : State) : (cancelStep s).agenda = s.agenda := by simp [cancelStep]
@[simp] theorem cancelStep_freeCtr (s : State) : (cancelStep s).freeCtr = s.freeCtr := by simp [cancelStep]
@[simp] theorem cancelStep_str (s : State) : (cancelStep s).dev.str = { s.dev.str with mode := .idle } := by
  apply str_ext <;> simp [cancelStep]
@[simp] theorem cancelStep_pin (s : State) : (cancelStep s).dev.gpio.pin = clearLines s.par s.dev.gpio.pin := by
  simp [cancelStep]
@[simp] theorem cancelStep_ie (s : State) : (cancelStep s).dev.gpio.ie = clearLines s.par s.dev.gpio.ie := by
  simp [cancelStep, clearLines]
@[simp] theorem cancelStep_radio (s : State) : (cancelStep s).radio =
    { s.radio with rstate := .idle, txFifo := [], rxFifo := [], txUnf := false, rxOvf := false } := by simp [cancelStep]
/-- The flags are cleared before the strobe: a line that was high and selects its falling edge sets its flag again. -/
theorem cancelStep_ifgOf (s : State) (h : s.par.pktBit ≠ s.par.thrBit) (x : Line) :
    ifgOf x (cancelStep s) = (pinOf x s && iesOf x s) := by
  have e : ifgOf x (cancelStep s) = ifgOf x (strobeAbort
    (setIfg .thr false (setIfg .pkt false (setIe .thr false (setIe .pkt false s))))) := rfl
  rw [e, strobeAbort_ifgOf _ (by simpa using h)]
  cases x <;> simp [ifgOf, pinOf, iesOf, h]
/-- No other flag bit changes. -/
theorem cancelStep_ifg_other (s : State) (n : Fin 8) (h1 : n ≠ s.par.pktBit) (h2 : n ≠ s.par.thrBit) :
    bitAt (cancelStep s).dev.gpio.ifg n = bitAt s.dev.gpio.ifg n := by
  have e : (cancelStep s).dev.gpio.ifg = (strobeAbort
    (setIfg .thr false (setIfg .pkt false (setIe .thr false (setIe .pkt false s))))).dev.gpio.ifg := rfl
  rw [e, strobeAbort_ifg_other _ _ (by simpa using h1) (by simpa using h2)]
  simp [h1, h2]

/-! ## The events of a streaming mode (R153 to R158) -/

/-- All a sync word does (R154, R157). -/
theorem syncSeen_eq (s : State) :
    syncSeen s =
      { s with
        dev.str.cntPktRise := s.dev.str.cntPktRise + 1
        dev.gpio.ies := withBit s.dev.gpio.ies s.par.pktBit true
        dev.gpio.ifg := withBit s.dev.gpio.ifg s.par.pktBit false } := rfl

/-- The state a refill that fits leaves (R153). -/
theorem refill_of_fits (s : State) (h : fitsTxFifo (txNext s) s) :
    refill s = .next
      (let u := setIfg .thr false (setTxPos (s.dev.str.txpos + refillSize s) (updateThr (pushTxFifo (txNext s) (bumpThrFall s))))
       if s.dev.str.txpos + refillSize s = s.dev.str.txlen then setIe .thr false u else u) := by
  have e : memRead .txbuf (bumpThrFall s).dev.str.txpos (refillSize (bumpThrFall s)) (bumpThrFall s) = txNext s := rfl
  have h' : fitsTxFifo (txNext s) (bumpThrFall s) := h
  unfold refill
  simp only [e]
  rw [fifoWrite_of_fits h', andThen_of_next]
  simp only [updateThr_str, setIfg_str, setTxPos_txpos, setTxPos_txlen]
  rfl

/-- A refill that does not fit is the fault of R63. -/
theorem refill_of_not_fits (s : State) (h : ¬fitsTxFifo (txNext s) s) : refill s = .fault .fifoOverfill := by
  have e : memRead .txbuf (bumpThrFall s).dev.str.txpos (refillSize (bumpThrFall s)) (bumpThrFall s) = txNext s := rfl
  have h' : ¬fitsTxFifo (txNext s) (bumpThrFall s) := h
  unfold refill
  simp only [e]
  rw [fifoWrite_of_not_fits h', andThen_of_fault]

/-- The bytes a drain takes: `min(RX_CHUNK, FifoCount, room)` (R156). -/
theorem drain_next (s : State) (n : Nat) (hn : n = min s.par.rxChunk (min (rxCount s) (rxRoom s))) :
    drain s = .next (setIfg .thr false (appendRxBuf (s.radio.rxFifo.take n) (updateThr (dropRxFifo n (bumpThrRise s))))) := by
  subst hn
  unfold drain
  rw [drainInto_of_le (by simp only [rxCount, bumpThrRise_radio]; omega)]
  rfl

/-- End of a reception that overflowed (R158). -/
theorem rxEnd_of_overflow (s : State) (h : s.radio.rxOvf = true) :
    rxEnd s = .next (setMode .idle (stopLinesOp (reportRxOverflow (bumpPktFall s)))) := by
  unfold rxEnd; simp [radioStatusOf, h]

/-- End of a reception without an overflow (R158). -/
theorem rxEnd_of_no_overflow (s : State) (n : Nat) (h : s.radio.rxOvf = false) (hn : n = min (rxCount s) (rxRoom s)) :
    rxEnd s = .next
      (let u := appendRxBuf (s.radio.rxFifo.take n) (updateThr (dropRxFifo n (bumpPktFall s)))
       let v := if rxCount u > 0 then strobeFlushRx u else u
       setMode .idle (stopLinesOp (composeDataOp .rx v.dev.str.rxbuf v))) := by
  subst hn
  unfold rxEnd
  simp only [radioStatusOf, bumpPktFall_radio, h, Bool.false_eq_true, if_false]
  rw [drainInto_of_le (by simp only [rxCount, bumpPktFall_radio]; omega)]
  rfl

/-! ## What `STR_STEP` leaves alone (R20) -/

/-- What the streamer never touches: the parameters, the clock, the host half, the channels, the log, the agenda, the receiver and the
record of INIT. -/
def SameElsewhere (s t : State) : Prop :=
  t.par = s.par ∧ t.now = s.now ∧ t.host = s.host ∧ t.lH2D = s.lH2D ∧ t.lD2H = s.lD2H ∧ t.termIn = s.termIn ∧
    t.termOut = s.termOut ∧ t.log = s.log ∧ t.agenda = s.agenda ∧ t.dev.trd = s.dev.trd ∧ t.dev.parms = s.dev.parms ∧
    t.dev.inited = s.dev.inited ∧ t.dev.gie = s.dev.gie

/-- `COMPOSE_STATUS` changes nothing of it (R161). -/
theorem composeStatusOp_elsewhere (ty : BlockType) (st : Byte) (s : State) : SameElsewhere s (composeStatusOp ty st s) := by
  obtain ⟨r, _, e⟩ := composeStatusOp_eq ty st s
  rw [e]; simp [SameElsewhere]

/-- One change after another. -/
theorem sameElsewhere_trans {s t u : State} (h : SameElsewhere s t) (k : SameElsewhere t u) : SameElsewhere s u := by
  unfold SameElsewhere at *
  obtain ⟨h1, h2, h3, h4, h5, h6, h7, h8, h9, h10, h11, h12, h13⟩ := h
  simp only [h1, h2, h3, h4, h5, h6, h7, h8, h9, h10, h11, h12, h13] at k
  exact k

/-- `STR_STEP`, whatever the event, changes nothing but the streamer, the GPIO registers, the radio, `OUTQ` and the free counter
(R150, R160). -/
theorem strStepOp_elsewhere {ev : Event} {s t : State} (h : strStepOp ev s = .next t) : SameElsewhere s t := by
  have hset : ∀ u : State, SameElsewhere s u → SameElsewhere s (setMode .idle (stopLinesOp u)) := by
    intro u hu; exact sameElsewhere_trans hu (by simp [SameElsewhere, stopLinesOp_eq])
  unfold strStepOp at h
  split at h
  · next p _ =>
    by_cases hf : fitsTxFifo (txHead p s) s
    · rw [txSetup_of_fits p s hf] at h; injection h with h; subst h; simp [SameElsewhere]
    · rw [txSetup_of_not_fits p s hf] at h; cases h
  · injection h with h; subst h; simp [SameElsewhere]
  · injection h with h; subst h; simp [SameElsewhere]
  · injection h with h; subst h; simp [SameElsewhere]
  · injection h with h; subst h; simp [SameElsewhere]
  · injection h with h; subst h; split <;> simp [SameElsewhere, syncSeen]
  · injection h with h; subst h; simp [SameElsewhere]
  · injection h with h; subst h; split
    · unfold txEnd
      apply hset
      split
      · exact sameElsewhere_trans (by simp [SameElsewhere]) (composeStatusOp_elsewhere _ _ _)
      · exact sameElsewhere_trans (t := strobeFlushTx (bumpPktFall s)) (by simp [SameElsewhere]) (composeStatusOp_elsewhere _ _ _)
    · simp [SameElsewhere]
  · split at h
    · cases ho : s.radio.rxOvf with
      | true =>
        rw [rxEnd_of_overflow s ho] at h; injection h with h; subst h
        exact hset _ (sameElsewhere_trans (t := strobeFlushRx (bumpPktFall s)) (by simp [SameElsewhere]) (composeStatusOp_elsewhere _ _ _))
      | false =>
        rw [rxEnd_of_no_overflow s _ ho rfl] at h; injection h with h; subst h
        apply hset
        split <;> simp [SameElsewhere, composeDataOp]
    · injection h with h; subst h; simp [SameElsewhere]
  · split at h
    · rw [drain_next s _ rfl] at h; injection h with h; subst h; simp [SameElsewhere]
    · injection h with h; subst h; simp [SameElsewhere]
  · injection h with h; subst h; simp [SameElsewhere]
  · split at h
    · by_cases hf : fitsTxFifo (txNext s) s
      · rw [refill_of_fits s hf] at h; injection h with h; subst h
        split <;> simp [SameElsewhere]
      · rw [refill_of_not_fits s hf] at h; cases h
    · injection h with h; subst h; simp [SameElsewhere]
  · injection h with h; subst h; simp [SameElsewhere]
  · injection h with h; subst h; simp [SameElsewhere]

end Sys2Proof.Machine
end

