-- ==== Sys2Proof/Laws/Transport.lean ====
section
/-! SUPPORT. The transport's shared operations: the block a type byte selects, the answer a waiting command makes of a block, the
bracket of the device's main loop. -/

namespace Sys2Proof.Machine

/-- A block type and its code. -/
theorem blockTypeOf_code {code : Byte} {ty : BlockType} (h : blockTypeOf code = some ty) : typeCode ty = code := by
  unfold blockTypeOf at h
  repeat' split at h
  all_goals first
    | (injection h with h; subst h; rename_i e; exact e.symm)
    | cases h

/-- Every reply block is read the same way, whatever its type (R113). -/
theorem exec_decodeReply (code : Byte) (p : Bytes) (s : State) :
    exec (decodeReply code p) s = .next (hostAnswer code p s) := by
  unfold decodeReply
  cases h : blockTypeOf code with
  | none => rfl
  | some ty => have e := blockTypeOf_code h; cases ty <;> subst e <;> rfl

/-- The host runs the reply block it has read (R101, R113). -/
theorem replyDispatch_eq (code : Byte) (p : Bytes) (s : State) : replyDispatch code p s = .next (hostAnswer code p s) := by
  rw [← exec_decodeReply]
  unfold replyDispatch decodeReply
  cases blockTypeOf code with
  | none => rfl
  | some ty => cases ty <;> rfl

/-- The device runs the command block the type byte selects (R104). -/
theorem commandDispatch_eq (code : Byte) (p : Bytes) (s : State) : commandDispatch code p s = exec (decodeCommand code p) s := by
  unfold commandDispatch decodeCommand
  cases blockTypeOf code with
  | none => rfl
  | some ty => cases ty <;> rfl

/-- What the answer to a waiting `HOST_INIT` does (R114). -/
theorem hostAnswer_init {s : State} {n : Nat} {k : List Task} (h : s.host.ctl = .awaitInit n :: k) (code : Byte) (p : Bytes) :
    hostAnswer code p s = answerInit n code (setCtl k s) := by simp [hostAnswer, h]

/-- What the answer to a waiting `SEND_BLOCK` does (R132). -/
theorem hostAnswer_tx {s : State} {k : List Task} (h : s.host.ctl = .awaitTx :: k) (code : Byte) (p : Bytes) :
    hostAnswer code p s = answerTx code p (setCtl k s) := by simp [hostAnswer, h]

/-- What the answer to a waiting `RECEIVE_BLOCK` does (R134). -/
theorem hostAnswer_rx {s : State} {k : List Task} (h : s.host.ctl = .awaitRx :: k) (code : Byte) (p : Bytes) :
    hostAnswer code p s = answerRx code p (setCtl k s) := by simp [hostAnswer, h]

/-- What a block does to a waiting `CANCEL_RX` (R229). -/
theorem hostAnswer_cancel {s : State} {k : List Task} (h : s.host.ctl = .awaitCancel :: k) (code : Byte) (p : Bytes) :
    hostAnswer code p s = answerCancel code (setCtl k s) := by simp [hostAnswer, h]

/-- What the answer to a waiting exchange does (R113). -/
theorem hostAnswer_reply {s : State} {c : Cmd} {k : List Task} (h : s.host.ctl = .awaitReply c :: k) (code : Byte) (p : Bytes) :
    hostAnswer code p s = answerReply c code p (setCtl k s) := by simp [hostAnswer, h]

/-- A block nothing waits for is the result (R101). -/
theorem hostAnswer_plain {s : State} (h : awaiting s.host.ctl = false) (code : Byte) (p : Bytes) :
    hostAnswer code p s = setRes (.block code (BitVec.ofNat 8 p.length) p) s := by
  unfold hostAnswer; unfold awaiting at h
  split <;> simp_all

/-- A time-out nothing waits for is the result (R101). -/
theorem hostTimeout_plain {s : State} (h : awaiting s.host.ctl = false) : hostTimeout s = setRes .timeout s := by
  unfold hostTimeout; unfold awaiting at h
  split <;> simp_all

/-- `SEND_COMMAND` of a payload that fits (R100). -/
theorem sendCommandOp_of_fits (c : Cmd) {p : Bytes} (h : p.length ≤ 255) (s : State) :
    sendCommandOp c p s = setRes (.wrote (p.length + 2)) (putH2D (blockBytes (typeCode c.blockType) p) s) := if_pos h

/-- `SEND_COMMAND` of a payload that does not (R100). -/
theorem sendCommandOp_of_not_fits (c : Cmd) {p : Bytes} (h : 255 < p.length) (s : State) :
    sendCommandOp c p s = setRes (.fail .refused []) s := if_neg (by omega)

/-- An exchange whose payload fits: the command, then the read of its answer (R113). -/
theorem exchangeOp_of_fits (c : Cmd) {p : Bytes} (h : p.length ≤ 255) (s : State) :
    exchangeOp c p s =
      pushTasks [.call (.readBlock (answerTimeout c s.host.cfg)), .awaitReply c]
        (setRes (.wrote (p.length + 2)) (putH2D (blockBytes (typeCode c.blockType) p) s)) := by
  simp [exchangeOp, h, sendCommandOp_of_fits c h]

/-- An exchange whose payload does not fit is refused with nothing sent (R100). -/
theorem exchangeOp_of_not_fits (c : Cmd) {p : Bytes} (h : 255 < p.length) (s : State) :
    exchangeOp c p s = setRes (.fail .refused []) s := by
  simp [exchangeOp, sendCommandOp_of_not_fits c h, show ¬p.length ≤ 255 by omega]

/-- What is asked of the host when the turn has an effect, and when it has none (R57). -/
theorem askExchange_of_between {c : Cmd} {s : State} (hc : ownExchange c = true) (hb : hostBetween s.host.ctl = true)
    (ha : s.host.sch.armed = false) (p : Bytes) : askExchange c p s = pushTasks [.exchange c p] s := by
  simp [askExchange, hc, hb, ha]

theorem askExchange_of_not {c : Cmd} {s : State} (h : (ownExchange c && hostBetween s.host.ctl && !s.host.sch.armed) = false)
    (p : Bytes) : askExchange c p s = s := by
  simp only [askExchange, h, Bool.false_eq_true, if_false]

/-- The host is between two operations in these four cases. -/
theorem hostBetween_iff (k : List Task) :
    hostBetween k = true ↔
      k = [] ∨ k = [.call .schedStart] ∨ k = [.call .schedLoop] ∨ ∃ n, k = [.sleep n, .call .schedLoop] := by
  unfold hostBetween
  split <;> simp_all

/-- A call outside its operands' limits, by the half that runs it (log entry 14). -/
theorem refuseCall_host {i : Instr} (h : hostOp i = true) (s : State) :
    refuseCall i s = .next (setRes (.fail .refused []) s) := by simp [refuseCall, h]

theorem refuseCall_dev {i : Instr} (h : hostOp i = false) (s : State) : refuseCall i s = .next s := by
  simp [refuseCall, h, ignoreCommand]

/-- The bracket of the main loop: the body runs with `GIE` = 0, and `GIE` is 1 after it (R59). -/
theorem bracket_next {f : State → Out} {s t : State} (h : bracket f s = .next t) :
    ∃ u, f { s with dev.gie := false } = .next u ∧ t = { u with dev.gie := true } := by
  obtain ⟨u, h1, h2⟩ := andThen_next h
  injection h2 with h2
  exact ⟨u, h1, h2.symm⟩

/-- All `DEV_RECV` does with a byte that does not complete a block (R103). -/
theorem execDevRecv_incomplete {s : State} {b : Byte} {rest : Bytes} (h : s.lH2D.avail = b :: rest)
    (hc : (trdPush s.dev.trd b).complete = false) :
    execDevRecv s = .next { s with dev.trd := trdPush s.dev.trd b, lH2D.avail := rest } := by
  simp [execDevRecv, h, hc]

/-- All `DEV_RECV` does with the byte that completes a block (R103). -/
theorem execDevRecv_complete {s : State} {b : Byte} {rest : Bytes} (h : s.lH2D.avail = b :: rest)
    (hc : (trdPush s.dev.trd b).complete = true) :
    execDevRecv s =
      andThen (bracket (commandDispatch ((trdPush s.dev.trd b).acc.headD 0) ((trdPush s.dev.trd b).acc.drop 2))
        { s with dev.trd := trdPush s.dev.trd b, lH2D.avail := rest }) fun u => .next (trdClear u) := by
  simp [execDevRecv, h, hc]

end Sys2Proof.Machine
end

