-- ==== Sys2Proof/Tests/Slice0.lean ====
section
/-! SUPPORT. The model's own tests. Expected results come from `95_test_vectors.md` (the vector's name is in each comment) or from
the encoding tables; then, for every statement with hypotheses, states and operands that meet them. -/

namespace Sys2Proof.Tests

open Sys2Proof Sys2Proof.Machine

/-! ## Helpers -/

/-- The outcome is a next state that passes. -/
def nextIs (o : Out) (p : State → Bool) : Bool :=
  match o with
  | .next s => p s
  | .fault _ => false
  | .refused _ => false

/-- The outcome is this fault. -/
def faultIs (o : Out) (f : Fault) : Bool :=
  match o with
  | .fault g => decide (g = f)
  | _ => false

/-- The outcome is this refusal. -/
def refusedIs (o : Out) (r : Refusal) : Bool :=
  match o with
  | .refused q => decide (q = r)
  | _ => false

/-- The bytes decode to this instruction, with this rest. -/
def decodesTo (sp : Space) (bs : Bytes) (i : Instr) (rest : Bytes) : Bool :=
  match decode sp bs with
  | .ok (j, r) => decide (j = i) && decide (r = rest)
  | .error _ => false

/-- The bytes are refused for this reason. -/
def refusedAs (sp : Space) (bs : Bytes) (e : DecodeError) : Bool :=
  match decode sp bs with
  | .ok _ => false
  | .error d => decide (d = e)

/-- The device initialised and `IDLE`, the host with nothing to do. -/
def ready : State := { State.reset with dev.inited := true, host.ctl := [] }

/-- The host waiting for an answer. -/
def waiting (t : Task) : State := { ready with host.ctl := [t, .loopTail] }

/-- The device streaming, with the GPIO registers given. -/
def streaming (m : Mode) (pin ifg ie ies : Byte) : State :=
  { ready with dev.str.mode := m, dev.gpio := { pin := pin, ifg := ifg, ie := ie, ies := ies } }

/-- A transmission of 100 bytes before its first refill (vector M1, steps 2 and 3): 32 bytes left in the FIFO. -/
def midTx : State :=
  { streaming .txStreaming 0x01 0x02 0x03 0x03 with
    dev.str.txbuf := List.replicate 100 0x55
    dev.str.txlen := 100
    dev.str.txpos := 63
    radio.rstate := .tx
    radio.synced := true
    radio.sent := 31
    radio.airLen := 100
    radio.txFifo := List.replicate 32 0x55 }

/-- A reception with bytes in the FIFO (vectors M4). -/
def midRx (rxlen : Byte) (fifo : Bytes) (ies : Byte) : State :=
  { streaming .rxStreaming 0x00 0x01 0x03 ies with
    dev.str.rxlen := rxlen
    radio.rstate := .rx
    radio.inPkt := true
    radio.rxFifo := fifo }

/-- The last block in `OUTQ`. -/
def lastOut (s : State) : Bytes := s.dev.outq.getLastD []

/-! ## WellFormed: each check refuses an ill-formed term -/

theorem test_wf_payload_too_long : (Instr.tx (List.replicate 256 0)).wf = false := by decide +kernel
theorem test_wf_payload_longest : (Instr.tx (List.replicate 255 0)).wf = true := by decide +kernel
theorem test_wf_reply_too_long : (Instr.rxAck (List.replicate 256 0)).wf = false := by decide +kernel
theorem test_wf_reserved_named_h2d : (Instr.blockReserved .h2d 0x06 []).wf = false := by decide
theorem test_wf_reserved_ko_h2d : (Instr.blockReserved .h2d 0x07 []).wf = true := by decide
theorem test_wf_reserved_ko_d2h : (Instr.blockReserved .d2h 0x08 []).wf = false := by decide
theorem test_wf_reserved_nine : (Instr.blockReserved .d2h 0x09 []).wf = true := by decide
theorem test_wf_reserved_payload : (Instr.blockReserved .d2h 0x09 (List.replicate 256 0)).wf = false := by decide +kernel
theorem test_wf_unlisted_four : (Instr.kissUnlisted 0 4 none).wf = false := by decide
theorem test_wf_unlisted_fifteen : (Instr.kissUnlisted 0 15 none).wf = false := by decide
theorem test_wf_txstart_empty : (Instr.evTxStart []).wf = false := by decide
theorem test_wf_txstart_long : (Instr.evTxStart (List.replicate 256 0)).wf = false := by decide +kernel
theorem test_wf_strstep_txstart_empty : (Instr.strStep (.txStart [])).wf = false := by decide
theorem test_wf_dispatch_long : (Instr.devDispatch 0x06 (List.replicate 256 0)).wf = false := by decide +kernel
theorem test_wf_data_long : (Instr.composeData .rx (List.replicate 256 0)).wf = false := by decide +kernel

/-! ## Decoding: words written out from R70 to R73, R78 to R81, R83, R86 -/

theorem test_decode_init : decodesTo .command [0x01, 0x02, 0xAA, 0xBB] (.init [0xAA, 0xBB]) [] = true := by decide
theorem test_decode_tx : decodesTo .command [0x02, 0x03, 0x00, 0x41, 0x42] (.tx [0x00, 0x41, 0x42]) [] = true := by decide
theorem test_decode_rx : decodesTo .command [0x03, 0x01, 0x40, 0x05] (.rx [0x40]) [0x05] = true := by decide
theorem test_decode_rx_cancel : decodesTo .command [0x04, 0x00] (.rxCancel []) [] = true := by decide
theorem test_decode_radio_status : decodesTo .command [0x05, 0x00] (.radioStatus []) [] = true := by decide
theorem test_decode_echo_test :
    decodesTo .command [0x06, 0x03, 0x61, 0x62, 0x63] (.echoTest [0x61, 0x62, 0x63]) [] = true := by decide
theorem test_decode_init_echo : decodesTo .reply [0x01, 0x00] (.initEcho []) [] = true := by decide
theorem test_decode_tx_ack :
    decodesTo .reply [0x02, 0x09, 0x00, 0x01, 0x01, 0x00, 0x00, 0x00, 0x01, 0x01, 0x01]
      (.txAck [0x00, 0x01, 0x01, 0x00, 0x00, 0x00, 0x01, 0x01, 0x01]) [] = true := by decide
theorem test_decode_rx_ack :
    decodesTo .reply [0x03, 0x05, 0x00, 0x41, 0x42, 0xB0, 0x80] (.rxAck [0x00, 0x41, 0x42, 0xB0, 0x80]) [] = true := by decide
theorem test_decode_rx_cancel_echo : decodesTo .reply [0x04, 0x00] (.rxCancelEcho []) [] = true := by decide
theorem test_decode_radio_status_reply :
    decodesTo .reply [0x05, 0x02, 0x0D, 0x1F] (.radioStatusReply [0x0D, 0x1F]) [] = true := by decide
theorem test_decode_echo_test_reply : decodesTo .reply [0x06, 0x01, 0x61] (.echoTestReply [0x61]) [] = true := by decide
theorem test_decode_tx_ko : decodesTo .reply [0x07, 0x01, 0x01] (.txKo [0x01]) [] = true := by decide
theorem test_decode_rx_ko : decodesTo .reply [0x08, 0x01, 0x03] (.rxKo [0x03]) [] = true := by decide
theorem test_decode_reserved_h2d : decodesTo .command [0x07, 0x00] (.blockReserved .h2d 0x07 []) [] = true := by decide
theorem test_decode_reserved_d2h : decodesTo .reply [0x09, 0x01, 0x77] (.blockReserved .d2h 0x09 [0x77]) [] = true := by decide
theorem test_decode_truncated : refusedAs .command [0x03, 0x02, 0x40] .truncated = true := by decide
theorem test_decode_status :
    (decodesTo .status [0x00] .stOk [] && decodesTo .status [0x01] .stTxUnderflow [] &&
     decodesTo .status [0x02] .stTxNotEmpty [] && decodesTo .status [0x03] .stRxOverflow [] &&
     refusedAs .status [0x04] .reservedStatus) = true := by decide
theorem test_decode_special :
    (decodesTo .special [0xC0] .fend [] && decodesTo .special [0xDB] .fesc [] && decodesTo .special [0xDC] .tfend [] &&
     decodesTo .special [0xDD] .tfesc [] && refusedAs .special [0x41] .notSpecial) = true := by decide
theorem test_decode_kiss_data : decodesTo .kiss [0xC0, 0x10, 0x41, 0xC0] (.kissData 1 [0x41]) [0xC0] = true := by decide
theorem test_decode_kiss_data_escaped :
    decodesTo .kiss [0xC0, 0xDB, 0xDC, 0x41, 0xC0] (.kissData 12 [0x41]) [0xC0] = true := by decide
theorem test_decode_kiss_txdelay : decodesTo .kiss [0xC0, 0x21, 0x19, 0xC0] (.kissTxdelay 2 (some 0x19)) [0xC0] = true := by decide
theorem test_decode_kiss_persist : decodesTo .kiss [0xC0, 0x02, 0x40, 0xC0] (.kissPersist 0 (some 0x40)) [0xC0] = true := by decide
theorem test_decode_kiss_slottime : decodesTo .kiss [0xC0, 0x03, 0x0A, 0xC0] (.kissSlottime 0 (some 0x0A)) [0xC0] = true := by decide
theorem test_decode_kiss_txtail : decodesTo .kiss [0xC0, 0x04, 0xC0] (.kissTxtail 0 none) [0xC0] = true := by decide
theorem test_decode_kiss_abort : decodesTo .kiss [0xC0, 0xFF, 0xC0] (.kissAbort 15 none) [0xC0] = true := by decide
theorem test_decode_kiss_unlisted :
    decodesTo .kiss [0xC0, 0x05, 0x01, 0xC0] (.kissUnlisted 0 5 (some 0x01)) [0xC0] = true := by decide
theorem test_decode_kiss_empty : refusedAs .kiss [0xC0, 0x41] .noFrame = true := by decide
/-- One-byte rows of the opcode table, as `decodeTableWord` reads them (log entry 5). -/
theorem test_table_words :
    decodeTableWord 8 0x01 = some (.init []) ∧ decodeTableWord 8 0x08 = some (.rxKo []) ∧
    decodeTableWord 8 0x0F = some (.kissAbort 0 (some 0)) ∧ decodeTableWord 8 0x00 = some .stOk ∧
    decodeTableWord 8 0xDC = some .tfend := by decide
/-- The next step runs the word placed: RX_CANCEL from reset. -/
theorem test_fetch_rx_cancel :
    nextIs (step (State.reset.withFetchWord 8 0x04)) (fun t => decide (t.dev.outq = [[0x04, 0x00]])) = true := by decide
/-- The next step runs the word placed: KISS_TXDELAY with the value 0 from reset. -/
theorem test_fetch_kiss_abort :
    nextIs (step (State.reset.withFetchWord 8 0x0F)) (fun t => t.host.sch.halt) = true := by decide

/-! ## Command blocks (vectors T4, M2, M6) -/

/-- T4 a. -/
theorem test_init :
    nextIs (exec (.init [0xAA, 0xBB]) State.reset) (fun t =>
      decide (t.dev.outq = [[0x01, 0x00]]) && t.dev.inited && decide (t.dev.parms = [0xAA, 0xBB])) = true := by decide
/-- T4 b. -/
theorem test_init_wrong_length :
    nextIs (exec (.init [1, 2, 3]) State.reset) (fun t => decide (t = State.reset)) = true := by decide
/-- M2, first row. -/
theorem test_tx :
    nextIs (exec (.tx [0x00, 0x41, 0x42]) ready) (fun t =>
      decide (t.dev.str.mode = .txStreaming) && decide (t.radio.txFifo = [0x00, 0x41, 0x42]) &&
      decide (t.dev.str.txpos = 3) && decide (t.dev.gpio.ie = 0x01) && decide (t.dev.gpio.ies = 0x00) &&
      decide (t.radio.airLen = 3)) = true := by decide
/-- T4 r. -/
theorem test_tx_empty : nextIs (exec (.tx []) ready) (fun t => decide (t = ready)) = true := by decide
/-- T4 j. -/
theorem test_rx :
    nextIs (exec (.rx [0x40]) ready) (fun t =>
      decide (t.dev.str.mode = .rxStreaming) && decide (t.dev.str.rxlen = 0x40) && decide (t.dev.gpio.ie = 0x03) &&
      decide (t.dev.gpio.ies = 0x00) && decide (t.radio.rstate = .rx) && decide (t.dev.outq = [])) = true := by decide
/-- T4 q. -/
theorem test_rx_two_bytes : nextIs (exec (.rx [0x40, 0x40]) ready) (fun t => decide (t = ready)) = true := by decide
/-- T4 e. -/
theorem test_rx_cancel :
    nextIs (exec (.rxCancel []) State.reset) (fun t => decide (t.dev.outq = [[0x04, 0x00]]) && decide (t.dev.str.mode = .idle)) =
      true := by decide
/-- M6, third row: both lines high and selecting their falling edge. -/
theorem test_rx_cancel_sets_flags_again :
    nextIs (exec (.rxCancel []) (streaming .txStreaming 0x03 0x00 0x03 0x03)) (fun t =>
      decide (t.dev.gpio = { pin := 0x00, ifg := 0x03, ie := 0x00, ies := 0x03 }) && decide (t.dev.str.mode = .idle)) =
      true := by decide
/-- T4 f. -/
theorem test_radio_status :
    nextIs (exec (.radioStatus []) State.reset) (fun t =>
      decide ((lastOut t).take 2 = [0x05, 0x02]) && decide ((lastOut t).length = 4)) = true := by decide
/-- T4 g. -/
theorem test_echo_test :
    nextIs (exec (.echoTest [0x61, 0x62, 0x63]) State.reset) (fun t =>
      decide (t.dev.outq = [[0x06, 0x03, 0x61, 0x62, 0x63]])) = true := by decide
/-- T4 i. -/
theorem test_reserved_h2d :
    nextIs (exec (.blockReserved .h2d 0x07 []) State.reset) (fun t => decide (t = State.reset)) = true := by decide

/-! ## Reply blocks (vectors T5, G4, G5, H4, T2) -/

/-- T5, first row. -/
theorem test_init_echo :
    nextIs (exec (.initEcho []) (waiting (.awaitInit 1))) (fun t =>
      decide (t.host.res = .ok) && decide (t.host.ctl = [.loopTail]) && decide (t.log = [])) = true := by decide
/-- T5, third row: the first answer has the wrong type. -/
theorem test_radio_status_reply :
    nextIs (exec (.radioStatusReply []) (waiting (.awaitInit 1))) (fun t =>
      decide (t.log = [.radioInitAttempt]) && decide (t.host.ctl = [.initAttempt 2, .loopTail])) = true := by decide
/-- G4, first row. -/
theorem test_tx_ack :
    nextIs (exec (.txAck [0, 1, 1, 0, 0, 0, 1, 1, 1]) (waiting .awaitTx)) (fun t =>
      decide (t.host.res = .ok) && decide (t.log = [])) = true := by decide
/-- G4: `02 01 00`. -/
theorem test_tx_ack_short :
    nextIs (exec (.txAck [0]) (waiting .awaitTx)) (fun t =>
      decide (t.host.res = .fail .notReceived []) && decide (t.log = [.notReceived])) = true := by decide
/-- G4, second row. -/
theorem test_tx_ko :
    nextIs (exec (.txKo [1, 1, 1, 0, 0, 0, 1, 1, 1]) (waiting .awaitTx)) (fun t =>
      decide (t.host.res = .fail .ko [1, 1, 1, 0, 0, 0, 1, 1, 1])) = true := by decide
/-- G4: `07 00`, the length is tested before the type. -/
theorem test_tx_ko_short :
    nextIs (exec (.txKo []) (waiting .awaitTx)) (fun t => decide (t.host.res = .fail .notReceived [])) = true := by decide
/-- G5: a good RX ack. -/
theorem test_rx_ack :
    nextIs (exec (.rxAck [0x00, 0x41, 0x42, 0xB0, 0x80]) (waiting .awaitRx)) (fun t =>
      decide (t.host.res = .received 0x00 [0x41, 0x42])) = true := by decide
/-- G5: the CRC bit clear. -/
theorem test_rx_ack_bad_crc :
    nextIs (exec (.rxAck [0x00, 0x41, 0x42, 0xB0, 0x2F]) (waiting .awaitRx)) (fun t =>
      decide (t.host.res = .fail .crc []) && decide (t.log = [.crc])) = true := by decide
/-- G5: an RX_KO. -/
theorem test_rx_ko :
    nextIs (exec (.rxKo [3, 1, 1, 0, 0, 0, 3, 3, 1]) (waiting .awaitRx)) (fun t =>
      decide (t.host.res = .fail .ko [3, 1, 1, 0, 0, 0, 3, 3, 1])) = true := by decide
/-- H4, first row. -/
theorem test_rx_cancel_echo :
    nextIs (exec (.rxCancelEcho []) { waiting .awaitCancel with host.sch.armed := true }) (fun t =>
      decide (t.host.sch.armed = false) && decide (t.log = [])) = true := by decide
/-- R132: an answer of another type. -/
theorem test_echo_test_reply :
    nextIs (exec (.echoTestReply [1, 2]) (waiting .awaitTx)) (fun t =>
      decide (t.host.res = .fail .badReply [0x06])) = true := by decide
/-- T2 k. -/
theorem test_reserved_d2h :
    nextIs (exec (.blockReserved .d2h 0x09 [0x77]) ready) (fun t => decide (t.host.res = .block 0x09 1 [0x77])) = true := by decide

/-! ## Status codes (R155, R158, R284) -/

theorem test_st_ok : nextIs (exec .stOk ready) (fun t => decide ((lastOut t).take 7 = [0x02, 9, 0, 0, 0, 0, 0])) = true := by decide
theorem test_st_underflow :
    nextIs (exec .stTxUnderflow { ready with radio.txUnf := true }) (fun t =>
      decide ((lastOut t).take 3 = [0x07, 9, 1]) && !t.radio.txUnf) = true := by decide
theorem test_st_not_empty :
    nextIs (exec .stTxNotEmpty { ready with radio.txFifo := [1] }) (fun t =>
      decide ((lastOut t).take 3 = [0x07, 9, 2]) && decide (t.radio.txFifo = [])) = true := by decide
theorem test_st_overflow :
    nextIs (exec .stRxOverflow { ready with radio.rxOvf := true, radio.rxFifo := [1] }) (fun t =>
      decide ((lastOut t).take 3 = [0x08, 9, 3]) && !t.radio.rxOvf && decide (t.radio.rxFifo = [])) = true := by decide

/-! ## KISS (vectors K1 to K5) -/

theorem test_fend : nextIs (exec .fend ready) (fun t => decide (t = ready)) = true := by decide
theorem test_fesc : nextIs (exec .fesc ready) (fun t => t.host.kiss.esc && decide (t.host.kiss.out = [])) = true := by decide
/-- K2: `C0 DB DC C0` is `C0`. -/
theorem test_tfend :
    nextIs (exec .tfend { ready with host.kiss.esc := true }) (fun t => decide (t.host.kiss.out = [0xC0])) = true := by decide
/-- K2: `C0 DB DD C0` is `DB`. -/
theorem test_tfesc :
    nextIs (exec .tfesc { ready with host.kiss.esc := true }) (fun t => decide (t.host.kiss.out = [0xDB])) = true := by decide
theorem test_kiss_data :
    nextIs (exec (.kissData 0 [0x41]) { ready with host.kiss.frame := [0xC0, 0x00, 0x41, 0xC0] }) (fun t =>
      decide (t.host.kiss.rem = [0xC0, 0x00, 0x41, 0xC0])) = true := by decide
/-- K5: TXDELAY 0x19 is 25000 ticks. -/
theorem test_kiss_txdelay : nextIs (exec (.kissTxdelay 0 (some 0x19)) ready) (fun t => decide (t.host.tnc.keyup = 25000)) = true := by
  decide
theorem test_kiss_persist :
    nextIs (exec (.kissPersist 0 (some 0x80)) ready) (fun t => decide (t.host.tnc.persist = 0x80)) = true := by decide
theorem test_kiss_slottime :
    nextIs (exec (.kissSlottime 0 (some 0x0A)) ready) (fun t => decide (t.host.tnc.slottime = 0x0A)) = true := by decide
theorem test_kiss_txtail :
    nextIs (exec (.kissTxtail 0 (some 2)) ready) (fun t => decide (t.host.tnc.keydown = 2000)) = true := by decide
theorem test_kiss_abort : nextIs (exec (.kissAbort 15 none) ready) (fun t => t.host.sch.halt) = true := by decide
theorem test_kiss_unlisted : nextIs (exec (.kissUnlisted 0 5 (some 1)) ready) (fun t => decide (t = ready)) = true := by decide
/-- K3: the shared delimiter opens the next frame. -/
theorem test_tokenize :
    nextIs (exec (.tokenize [0xC0, 0xC0, 0x00, 0x41, 0xC0, 0x00, 0x42, 0xC0]) ready) (fun t =>
      decide (t.host.res = .token (some ([0xC0, 0x00, 0x41, 0xC0], [0xC0, 0x00, 0x42, 0xC0])))) = true := by decide
/-- K3: not closed. -/
theorem test_tokenize_open :
    nextIs (exec (.tokenize [0xC0, 0x00, 0x41]) ready) (fun t => decide (t.host.res = .token none)) = true := by decide
/-- K2: two escapes before TFEND. -/
theorem test_unescape :
    nextIs (exec (.unescape [0xC0, 0xDB, 0xDB, 0xDC, 0xC0]) ready) (fun t => decide (t.host.res = .bytes [0xDB, 0xDC])) = true := by
  decide
/-- K2: a lone trailing escape. -/
theorem test_unescape_trailing :
    nextIs (exec (.unescape [0xC0, 0x41, 0xDB, 0xC0]) ready) (fun t => decide (t.host.res = .bytes [0x41])) = true := by decide
/-- K1. -/
theorem test_escape :
    nextIs (exec (.escape [0x00, 0xC0, 0x01, 0xDB]) ready) (fun t =>
      decide (t.host.res = .bytes [0xC0, 0x00, 0xDB, 0xDC, 0x01, 0xDB, 0xDD, 0xC0])) = true := by decide
/-- K4: further bytes are ignored. -/
theorem test_interpret :
    nextIs (exec (.interpretCommand [0xC0, 0x01, 0x19, 0xFF, 0xC0]) ready) (fun t =>
      decide (t.host.res = .command (.config 1 0 (some 0x19)))) = true := by decide
/-- K5: configuration and data. -/
theorem test_kiss_process :
    nextIs (exec (.kissProcess [0xC0, 0x01, 0x19, 0xC0, 0xC0, 0x00, 0x41, 0xC0]) ready) (fun t =>
      decide (t.host.res = .bytes [0xC0, 0x00, 0x41, 0xC0]) && decide (t.host.tnc.keyup = 25000) && decide (t.log = [])) =
      true := by decide
/-- K5: resynchronisation. -/
theorem test_kiss_process_nosync :
    nextIs (exec (.kissProcess [0x41, 0x42, 0xC0, 0x00, 0x43, 0xC0]) ready) (fun t =>
      decide (t.host.res = .bytes [0xC0, 0x00, 0x43, 0xC0]) && decide (t.log = [.kissNosync])) = true := by decide

/-! ## The streamer (vectors M1 to M8) -/

/-- M1, step 1: `FIFO_SIZE − 1` bytes loaded, both lines armed. -/
theorem test_ev_tx_start :
    nextIs (exec (.evTxStart (List.replicate 100 0x11)) ready) (fun t =>
      decide (t.dev.str.txpos = 63) && decide (t.radio.txFifo.length = 63) && decide (t.dev.gpio.ie = 0x03) &&
      decide (t.dev.gpio.ies = 0x02) && decide (t.dev.gpio.pin = 0x02)) = true := by decide
/-- M1, step 2. -/
theorem test_ev_pkt_rise :
    nextIs (exec .evPktRise (streaming .txStreaming 0x03 0x01 0x03 0x02)) (fun t =>
      decide (t.dev.str.cntPktRise = 1) && decide (t.dev.gpio = { pin := 3, ifg := 0, ie := 3, ies := 3 })) = true := by decide
/-- M1, step 3: a refill of 32 bytes. -/
theorem test_ev_thr_fall :
    nextIs (exec .evThrFall midTx) (fun t =>
      decide (t.dev.str.txpos = 95) && decide (t.radio.txFifo.length = 64) && decide (t.dev.str.cntThrFall = 1) &&
      decide (t.dev.gpio = { pin := 3, ifg := 0, ie := 3, ies := 3 })) = true := by decide
/-- R63: a refill into a FIFO that has no room for it. -/
theorem test_ev_thr_fall_overfill :
    faultIs (exec .evThrFall { midTx with radio.txFifo := List.replicate 33 0 }) .fifoOverfill = true := by decide
/-- M3, first row: not empty. -/
theorem test_ev_pkt_fall :
    nextIs (exec .evPktFall { streaming .txStreaming 0x00 0x01 0x01 0x01 with dev.str.cntPktRise := 1, radio.txFifo := [0x42] })
      (fun t => decide ((lastOut t).take 7 = [0x07, 9, 2, 1, 1, 0, 0]) && decide (t.radio.txFifo = []) &&
        decide (t.dev.str.mode = .idle) && decide (t.dev.gpio.ie = 0)) = true := by decide
/-- M4 f: truncated to `RXCAP`, the rest flushed. -/
theorem test_ev_pkt_fall_rx :
    nextIs (exec .evPktFall (midRx 0x04 [0, 1, 2, 3, 4, 5, 6, 7, 8, 9, 0xB0, 0x80] 0x01)) (fun t =>
      decide (t.dev.outq = [[0x03, 0x06, 0, 1, 2, 3, 4, 5]]) && decide (t.radio.rxFifo = [])) = true := by decide
/-- M4 d: 32 bytes drained. -/
theorem test_ev_thr_rise :
    nextIs (exec .evThrRise { midRx 0x40 (List.replicate 32 0x11) 0x01 with dev.gpio.pin := 0x03 }) (fun t =>
      decide (t.dev.str.rxbuf.length = 32) && decide (t.radio.rxFifo = []) && decide (t.dev.str.cntThrRise = 1) &&
      decide (t.dev.gpio.pin = 0x01)) = true := by decide
/-- M6, first row. -/
theorem test_ev_cancel :
    nextIs (exec .evCancel (streaming .rxStreaming 0x00 0x03 0x03 0x00)) (fun t =>
      decide (t.dev.str.mode = .idle) && decide (t.dev.gpio = { pin := 0, ifg := 0, ie := 0, ies := 0 })) = true := by decide
/-- T4 j, as an event. -/
theorem test_ev_rx_start :
    nextIs (exec (.evRxStart 0x40) ready) (fun t =>
      decide (t.dev.str.rxlen = 0x40) && decide (t.dev.gpio.ie = 3) && decide (t.radio.rstate = .rx)) = true := by decide
/-- M8: the counter wraps. -/
theorem test_str_step_wrap :
    nextIs (exec (.strStep .thrRise) { streaming .rxStreaming 0 0 0x03 0 with dev.str.cntThrRise := 0xFF }) (fun t =>
      decide (t.dev.str.cntThrRise = 0) && decide (t.dev.str.rxbuf = [])) = true := by decide
/-- M7, second row: not armed. -/
theorem test_str_step_ignored :
    nextIs (exec (.strStep .pktFall) (streaming .txStreaming 0 0 0x03 0x02)) (fun t =>
      decide (t = streaming .txStreaming 0 0 0x03 0x02)) = true := by decide
theorem test_stop_lines :
    nextIs (exec .stopLines (streaming .txStreaming 0x03 0xFF 0xFF 0x03)) (fun t =>
      decide (t.dev.gpio = { pin := 0x03, ifg := 0xFC, ie := 0xFC, ies := 0x03 })) = true := by decide
theorem test_compose_status :
    nextIs (exec (.composeStatus .txKo 2) { ready with dev.str.cntThrFall := 7 }) (fun t =>
      decide ((lastOut t).take 7 = [0x07, 9, 2, 0, 0, 0, 7]) && decide ((lastOut t).length = 11)) = true := by decide
theorem test_compose_data :
    nextIs (exec (.composeData .rx [0, 0x41]) ready) (fun t => decide (t.dev.outq = [[0x03, 0x02, 0, 0x41]])) = true := by decide

/-! ## Interrupts (section 2.4 of the vectors) -/

/-- Rows a to d: which edges set the flag. -/
theorem test_line_edges :
    ((setLine .pkt true (streaming .rxStreaming 0 0 1 0)).dev.gpio.ifg = 1) ∧
    ((setLine .pkt false (streaming .rxStreaming 1 0 1 0)).dev.gpio.ifg = 0) ∧
    ((setLine .pkt false (streaming .rxStreaming 1 0 1 1)).dev.gpio.ifg = 1) ∧
    ((setLine .pkt false (streaming .rxStreaming 1 0 0 1)).dev.gpio.ifg = 1) := by decide
/-- "Lost falling edge": the pending flag delivers the rise. -/
theorem test_isr_pkt :
    nextIs (exec .isrPkt (midRx 0x40 [0, 0x41, 0x42, 0xB0, 0x80] 0x00)) (fun t =>
      decide (t.dev.str.cntPktRise = 1) && decide (t.dev.gpio.ies = 1) && decide (t.dev.gpio.ifg = 0) && t.dev.gie &&
      decide (t.dev.str.mode = .rxStreaming)) = true := by decide
/-- Row f: not taken with `GIE` = 0. -/
theorem test_isr_pkt_masked :
    nextIs (exec .isrPkt { midRx 0x40 [] 0 with dev.gie := false }) (fun t =>
      decide (t = { midRx 0x40 [] 0 with dev.gie := false })) = true := by decide
/-- M1, step 3, through the handler. -/
theorem test_isr_thr :
    nextIs (exec .isrThr midTx) (fun t => decide (t.dev.str.txpos = 95) && decide (t.dev.gpio.ifg = 0) && t.dev.gie) = true := by
  decide

/-! ## The transport (vectors T1, T2, T4 s, T5) -/

/-- T1. -/
theorem test_send_command :
    nextIs (exec (.sendCommand .tx [0x00, 0x41, 0x42]) ready) (fun t =>
      decide (t.lH2D.flight = [0x02, 0x03, 0x00, 0x41, 0x42]) && decide (t.host.res = .wrote 5)) = true := by decide
/-- T1, last row. -/
theorem test_send_command_refused :
    nextIs (exec (.sendCommand .echoTest (List.replicate 256 0)) ready) (fun t =>
      decide (t.lH2D.flight = []) && decide (t.host.res = .fail .refused [])) = true := by decide +kernel
/-- T2 l: exactly one block is taken. -/
theorem test_read_block :
    nextIs (exec (.readBlock 0) { ready with lD2H.avail := [0x04, 0x00, 0x03, 0x05] }) (fun t =>
      decide (t.host.res = .block 0x04 0 []) && decide (t.lD2H.avail = [0x03, 0x05])) = true := by decide
/-- T2 b. -/
theorem test_read_block_timeout : nextIs (exec (.readBlock 0) ready) (fun t => decide (t.host.res = .timeout)) = true := by decide
/-- T5. -/
theorem test_host_init :
    nextIs (exec .hostInit ready) (fun t => decide (t.lH2D.flight = [0x01, 0x02, 0xAA, 0xBB]) &&
      decide (t.host.ctl = [.call (.readBlock 1000), .awaitInit 1])) = true := by decide
/-- R113: an exchange's command is sent, its answer awaited within `T_STATUS`. -/
theorem test_exchange :
    nextIs (runTask (.exchange .radioStatus []) ready) (fun t => decide (t.lH2D.flight = [0x05, 0x00]) &&
      decide (t.host.ctl = [.call (.readBlock 1000), .awaitReply .radioStatus])) = true := by decide
/-- R57, R10, R232: asked for between two operations only, with no RX outstanding, and never for a command that streams. -/
theorem test_exchange_asked :
    nextIs (runTurn (.exchange .radioStatus []) ready) (fun t => decide (t.host.ctl = [.exchange .radioStatus []])) = true ∧
    (∀ p ∈ [({ ready with host.sch.armed := true }, Cmd.radioStatus), (ready, .rx), (ready, .tx),
        ({ ready with host.ctl := [.packetSent [1] 3 0] }, .radioStatus), ({ ready with host.ctl := [.blockReceived 3 1] }, .echoTest),
        ({ ready with host.ctl := [.call .cancelRx, .flushTEnd] }, .echoTest), ({ ready with host.ctl := [.flushTSent] }, .echoTest)],
      nextIs (runTurn (.exchange p.2 []) p.1) (fun t => decide (t = p.1)) = true) := by decide
/-- R113: the reply is success, another type is `BAD_REPLY` with that type. -/
theorem test_exchange_answer :
    nextIs (exec (.radioStatusReply [0x0D, 0x1F]) (waiting (.awaitReply .radioStatus))) (fun t =>
      decide (t.host.res = .block 0x05 2 [0x0D, 0x1F]) && decide (t.log = [])) = true ∧
    nextIs (exec (.echoTestReply []) (waiting (.awaitReply .radioStatus))) (fun t =>
      decide (t.host.res = .fail .badReply [0x06]) && decide (t.log = [.badReply 0x06])) = true := by decide
/-- T4 s: the second byte is latched. -/
theorem test_dev_recv :
    nextIs (exec .devRecv { ready with dev.trd.acc := [0x03], lH2D.avail := [0x01, 0x40] }) (fun t =>
      decide (t.dev.trd = { acc := [0x03, 0x01], expv := true, exp := 1 }) && decide (t.lH2D.avail = [0x40])) = true := by decide
/-- T4 s: the third step dispatches. -/
theorem test_dev_recv_dispatch :
    nextIs (exec .devRecv { ready with dev.trd := { acc := [0x03, 0x01], expv := true, exp := 1 }, lH2D.avail := [0x40] })
      (fun t => decide (t.dev.str.mode = .rxStreaming) && decide (t.dev.trd.acc = []) && t.dev.gie) = true := by decide
theorem test_dev_dispatch :
    nextIs (exec (.devDispatch 0x06 [0x61]) ready) (fun t => decide (t.dev.outq = [[0x06, 0x01, 0x61]])) = true := by decide
theorem test_dev_send :
    nextIs (exec .devSend { ready with dev.outq := [[0x04, 0x00], [0x06, 0x00]] }) (fun t =>
      decide (t.lD2H.flight = [0x04, 0x00]) && decide (t.dev.outq = [[0x06, 0x00]])) = true := by decide

/-! ## Segmentation (vectors G1, G2, S3) -/

/-- G2. -/
theorem test_send_packet :
    nextIs (exec (.sendPacket [0x41, 0x42, 0x43, 0x44, 0x45] 5 0) ready) (fun t =>
      decide (t.lH2D.flight = [0x02, 0x04, 0x01, 0x41, 0x42, 0x43]) && decide (t.host.seg.nblk = 2)) = true := by decide
/-- G1: `B` = 3 and 257 bytes. -/
theorem test_send_packet_refused :
    nextIs (exec (.sendPacket (List.replicate 257 0) 3 0) ready) (fun t => decide (t.host.res = .fail .refused [])) = true := by decide +kernel
theorem test_send_block :
    nextIs (exec (.sendBlock 0 [0x44, 0x45]) ready) (fun t => decide (t.lH2D.flight = [0x02, 0x03, 0x00, 0x44, 0x45])) = true := by
  decide
theorem test_receive_packet :
    nextIs (exec (.receivePacket 5 10 20 false) ready) (fun t =>
      decide (t.host.ctl = [.call (.receiveBlock 5 10 false), .blockReceived 5 20])) = true := by decide
theorem test_receive_packet_refused :
    nextIs (exec (.receivePacket 254 10 20 false) ready) (fun t => decide (t.host.res = .fail .refused [])) = true := by decide
/-- R132, R137 with `93_implementation_defined.md` row 13: a chunk whose block's size does not fit a byte. -/
theorem test_send_block_refused :
    nextIs (exec (.sendBlock 0 (List.replicate 255 0)) ready) (fun t =>
      decide (t.host.res = .fail .refused []) && decide (t.lH2D.flight = []) && decide (t.host.ctl = [])) = true := by decide +kernel
/-- R137: `B` outside 3..253. -/
theorem test_receive_block_refused :
    nextIs (exec (.receiveBlock 254 10 false) ready) (fun t =>
      decide (t.host.res = .fail .refused []) && decide (t.lH2D.flight = [])) = true := by decide
theorem test_receive_block :
    nextIs (exec (.receiveBlock 5 10 false) ready) (fun t => decide (t.lH2D.flight = [0x03, 0x01, 0x05])) = true := by decide
/-- S3: `3, 1, 0` breaks at the second block. -/
theorem test_sequence_break :
    nextIs (runTask (.blockReceived 5 20) { ready with host.res := .received 1 [0x42], host.seg.nread := 1, host.seg.expcnt := 4 })
      (fun t => decide (t.host.res = .fail .seq [1]) && decide (t.log = [.seq 1])) = true := by decide

/-! ## The scheduler (vectors H1 to H3) -/

theorem test_sched_start :
    nextIs (exec .schedStart { ready with now := 5, host.sch.halt := true }) (fun t =>
      decide (t.host.sch = Sch.reset 5) && decide (t.host.ctl = [.call .hostInit, .call .armRx, .call .schedLoop])) = true := by
  decide
theorem test_sched_loop : nextIs (exec .schedLoop ready) (fun t => decide (t.host.ctl.length = 6)) = true := by decide
/-- H2 a. -/
theorem test_step1 :
    nextIs (exec .step1 { ready with host.sch.armed := true }) (fun t => decide (t.host.ctl = []) && decide (t.lH2D.flight = [])) =
      true := by decide
/-- H2 c, after the packet has been received. -/
theorem test_step1_done :
    nextIs (runTask .step1Done { ready with now := 20, host.res := .packet [0x41, 0x42], host.sch.tri := .txActive,
                                            host.sch.armed := true }) (fun t =>
      decide (t.host.sch.rbuf = [0x41, 0x42]) && decide (t.host.sch.tri = .rxActive) && decide (t.host.sch.tlast = 20) &&
      t.host.sch.rxtrig && !t.host.sch.armed) = true := by decide
/-- H2 k. -/
theorem test_step2 :
    nextIs (exec .step2 { ready with termIn := [0xC0, 0x00, 0x41, 0xC0], now := 10, host.sch.tri := .rxActive }) (fun t =>
      decide (t.host.sch.tbuf = [0xC0, 0x00, 0x41, 0xC0]) && decide (t.host.sch.tri = .txActive) && t.host.sch.txtrig) = true := by
  decide
/-- H2 l. -/
theorem test_step2_full :
    nextIs (exec .step2 { ready with par.tbufCap := 4, host.sch.tbuf := [0xC0, 0x00, 0x41], termIn := [0xC0, 0xC0, 0x00] }) (fun t =>
      decide (t.host.sch.tbuf = [0xC0, 0x00, 0x41, 0xC0]) && decide (t.termIn = [0xC0, 0x00])) = true := by decide
/-- H3, third row. -/
theorem test_step3 :
    nextIs (exec .step3 { ready with host.sch.rbuf := [0x41], host.cfg.radioWin := 30, now := 31 }) (fun t =>
      decide (t.termOut = [0x41]) && decide (t.host.sch.rbuf = [])) = true := by decide
/-- H3, second row. -/
theorem test_step3_waits :
    nextIs (exec .step3 { ready with host.sch.rbuf := [0x41], host.cfg.radioWin := 30, now := 30 }) (fun t =>
      decide (t.termOut = [])) = true := by decide
/-- H3: the trigger. -/
theorem test_step4 :
    nextIs (exec .step4 { ready with host.sch.tbuf := [0xC0, 0x00, 0x41, 0xC0], host.sch.txtrig := true, host.cfg.serialWin := 50 })
      (fun t => decide (t.host.ctl = [.sleep 0, .call (.sendPacket [0xC0, 0x00, 0x41, 0xC0] 64 0), .flushTSent])) = true := by decide
/-- H5. -/
theorem test_step5 :
    nextIs (exec .step5 { ready with host.sch.rbuf := [0x41, 0x42], host.sch.tri := .rxActive, host.cfg.radioWin := 100,
                                     host.sch.tlast := 1000, now := 1101 }) (fun t =>
      decide (t.termOut = [0x41, 0x42]) && decide (t.host.sch.tri = .idle)) = true := by decide
/-- H1, rows 3 and 4. -/
theorem test_elapsed :
    nextIs (exec (.elapsed 50) { ready with host.sch.tlast := 100, now := 150 }) (fun t => decide (t.host.res = .flag false)) = true ∧
    nextIs (exec (.elapsed 50) { ready with host.sch.tlast := 100, now := 151 }) (fun t => decide (t.host.res = .flag true)) = true := by
  decide
theorem test_clear_state :
    nextIs (exec (.clearState .r) { ready with host.sch.rbuf := [1], host.sch.tbuf := [2], host.sch.txtrig := true }) (fun t =>
      decide (t.host.sch.rbuf = []) && decide (t.host.sch.tbuf = [2]) && !t.host.sch.txtrig) = true := by decide
theorem test_arm_rx :
    nextIs (exec .armRx ready) (fun t => decide (t.lH2D.flight = [0x03, 0x01, 0x40]) && t.host.sch.armed) = true := by decide
theorem test_cancel_rx : nextIs (exec .cancelRx ready) (fun t => decide (t.lH2D.flight = [0x04, 0x00])) = true := by decide
theorem test_flush_r :
    nextIs (exec .flushR { ready with host.sch.rbuf := [0x41], host.sch.armed := true }) (fun t =>
      decide (t.termOut = [0x41]) && decide (t.host.ctl = [])) = true := by decide
theorem test_flush_t :
    nextIs (exec .flushT { ready with host.sch.tbuf := [0xC0, 0xFF, 0xC0] }) (fun t =>
      t.host.sch.halt && decide (t.host.sch.tbuf = []) && decide (t.host.ctl = [])) = true := by decide

/-! ## The starts of the halves (R39, R330, R332) -/

/-- Device power-up: not initialised, the lines quiet, what was on its way lost. -/
theorem test_power_up :
    nextIs (runTurn .devPowerUp { midTx with lH2D.avail := [0x02] }) (fun t =>
      decide (t.dev.inited = false) && decide (t.dev.str.mode = .idle) && decide (t.dev.gpio = { pin := 0, ifg := 0, ie := 0, ies := 0 }) &&
      decide (t.radio.txFifo = []) && decide (t.lH2D.avail = [])) = true := by decide
/-- Host process start: `SCH` as R39 says, nothing survives (R40), the device untouched. -/
theorem test_host_start :
    nextIs (runTurn (.hostStart 7 8) { midTx with now := 5, host.sch.halt := true, host.tnc.persist := 9, host.seg.asm := [1],
                                                  termIn := [0xC0] }) (fun t =>
      decide (t.host.sch = Sch.reset 5) && decide (t.host.tnc = { keyup := 7, persist := 0, slottime := 0, keydown := 8 }) &&
      decide (t.host.seg.asm = []) && decide (t.host.ctl = [.call .schedStart]) &&
      decide (t.termIn = []) && decide (t.dev = midTx.dev)) = true := by decide

/-! ## Refusals -/

/-- R12: a block size outside 3..253. -/
theorem test_bad_config : refusedIs (step { ready with host.cfg.b := 254 }) .badConfig = true := by decide
/-- `93_implementation_defined.md` row 13: a host call outside its operands' limits answers `Fail(REFUSED)`. -/
theorem test_ill_formed_host_call :
    nextIs (step { ready with agenda := [.direct (.kissUnlisted 0 4 none)] }) (fun t =>
      decide (t = { ready with host.res := .fail .refused [] })) = true := by decide
/-- The device half ignores it. -/
theorem test_ill_formed_event :
    nextIs (step { ready with agenda := [.direct (.evTxStart [])] }) (fun t => decide (t = ready)) = true := by decide

/-! ## Witnesses: for each statement with hypotheses, states and operands that meet them, at the boundaries of its clauses -/

/-- A packet is being received, with a block waiting to be sent: a state with the invariant. -/
def goodRx : State :=
  { midRx 0x40 [0x07] 0x00 with
    dev.gpio.pin := 0x01
    dev.str.rxbuf := [0x01, 0x02]
    dev.outq := [[0x04, 0x00]]
    host.ctl := [.call .step1]
    agenda := [.isrPkt] }

/-- The packet line's and the threshold line's handlers are both enabled, in reception. -/
def bothRequested : State := streaming .rxStreaming 0x03 0x03 0x03 0x00

theorem witness_DecodeOfEncode :
    (Instr.kissTxdelay 2 (some 0xC0)).wf = true ∧ (Instr.kissTxdelay 2 (some 0xC0)).space = some .kiss ∧
    (Instr.tx (List.replicate 255 0)).wf = true ∧ (Instr.tx (List.replicate 255 0)).space = some .command ∧
    (Instr.txKo []).wf = true ∧ (Instr.txKo []).space = some .reply := by decide +kernel
theorem witness_EncodeOfDecode :
    Space.reply ≠ .kiss ∧ decode .reply [0x09, 0x01, 0x77, 0x05] = .ok (.blockReserved .d2h 0x09 [0x77], [0x05]) :=
  ⟨by decide, rfl⟩
theorem witness_TokenizeFindsFirstFrame :
    ([0x41] : Bytes) ≠ [] ∧ FEND ∉ ([0x41] : Bytes) ∧ tokenize [0xC0, 0xC0, 0x41, 0xC0] = some ([0xC0, 0x41, 0xC0], [0xC0]) := by
  decide
theorem witness_UnescapeReadsByteByByte : ready.host.kiss.esc = false ∧ { ready with host.kiss.esc := true }.host.kiss.esc = true := by decide
theorem witness_InterpretCommandReadsNibbles :
    unescape [0xC0, 0xC0] = [] ∧
    (unescape [0xC0, 0xF0, 0x41, 0xC0] = [0xF0, 0x41] ∧ (0xF0 : Byte).toNat % 16 = 0) ∧
    (unescape [0xC0, 0x01, 0xC0] = [0x01] ∧ (0x01 : Byte).toNat % 16 ≠ 0) := by decide
theorem witness_CodecLaws :
    let body : Bytes := [0x00, 0xDB, 0xDC, 0x41, 0xDC]
    (0xC0 : Byte) ∉ body ∧ ∀ i : Nat, body[i]? = some 0xDB → body[i + 1]? = some 0xDC ∨ body[i + 1]? = some 0xDD := by
  refine ⟨by decide, ?_⟩
  intro i h
  rcases i with _ | _ | _ | _ | _ | i <;> simp at h ⊢
theorem witness_KissProcessRunsEveryFrame :
    tokenize [0xC0, 0x41, 0xC0] = some ([0xC0, 0x41, 0xC0], [0xC0]) ∧
    ([0xC0] : Bytes).head? = some FEND ∧ tokenize [0xC0] = none := by decide
theorem witness_DispatchByTypeOrIgnore :
    (List.replicate 255 (0 : Byte)).length ≤ 255 ∧
    ((0x00 : Byte) = 0x00 ∨ 7 ≤ (0x00 : Byte).toNat) ∧ ((0x07 : Byte) = 0x00 ∨ 7 ≤ (0x07 : Byte).toNat) ∧
    (([1] : Bytes).length ≠ ready.par.parmsLen ∨ ready.dev.str.mode ≠ .idle) ∧
    (([] : Bytes) = [] ∨ ready.dev.inited = false ∨ ready.dev.str.mode ≠ .idle) ∧
    ([0, 0x41] = ([] : Bytes) ∨ State.reset.dev.inited = false ∨ State.reset.dev.str.mode ≠ .idle) ∧
    ([0, 0x41] = ([] : Bytes) ∨ midTx.dev.inited = false ∨ midTx.dev.str.mode ≠ .idle) ∧
    (([0x40, 0x40] : Bytes).length ≠ 1 ∨ ready.dev.inited = false ∨ ready.dev.str.mode ≠ .idle) := by decide +kernel
theorem witness_InitCommandKeepsTheRecord :
    (([0xAA, 0xBB] : Bytes).length = ready.par.parmsLen ∧ ready.dev.str.mode = .idle) ∧
    (([0xAA] : Bytes).length ≠ ready.par.parmsLen ∨ ready.dev.str.mode ≠ .idle) ∧
    (([0xAA, 0xBB] : Bytes).length ≠ midTx.par.parmsLen ∨ midTx.dev.str.mode ≠ .idle) := by decide
theorem witness_EchoAndStatusAnswer : (List.replicate 255 (0 : Byte)).length ≤ 255 ∧ ready.par.statusLen ≤ 255 := by decide +kernel
theorem witness_TxStartLoadsAndArms :
    ready.par.pktBit ≠ ready.par.thrBit ∧ ready.dev.str.mode = .idle ∧ fitsTxFifo (txHead (List.replicate 255 1) ready) ready ∧
    fitsTxFifo (txHead [0] ready) ready ∧
    ¬fitsTxFifo (txHead [0] { ready with radio.txFifo := List.replicate 64 0 }) { ready with radio.txFifo := List.replicate 64 0 } ∧ ([0] : Bytes) ≠ [] ∧ ready.dev.inited = true := by
  unfold fitsTxFifo; decide +kernel
theorem witness_RxStartArmsBothLines :
    ready.par.pktBit ≠ ready.par.thrBit ∧ ready.dev.str.mode = .idle ∧ ready.dev.inited = true := by decide
theorem witness_PktRiseWaitsForTheFall :
    (streaming .txStreaming 3 1 3 2).dev.str.mode ≠ .idle ∧ ieOf .pkt (streaming .txStreaming 3 1 3 2) = true ∧
    iesOf .pkt (streaming .txStreaming 3 1 3 2) = false := by decide
theorem witness_ThrFallRefills :
    midTx.par.pktBit ≠ midTx.par.thrBit ∧ midTx.dev.str.mode = .txStreaming ∧ ieOf .thr midTx = true ∧ iesOf .thr midTx = true ∧
    fitsTxFifo (txNext midTx) midTx ∧
    ¬fitsTxFifo (txNext { midTx with radio.txFifo := List.replicate 33 0 }) { midTx with radio.txFifo := List.replicate 33 0 } := by
  unfold fitsTxFifo; decide +kernel
theorem witness_PktFallEndsTransmission :
    let s := streaming .txStreaming 0 1 1 1
    s.dev.str.mode = .txStreaming ∧ ieOf .pkt s = true ∧ iesOf .pkt s = true := by decide
theorem witness_ThrRiseDrains :
    let s := midRx 0x40 (List.replicate 32 0x11) 0x01
    s.par.pktBit ≠ s.par.thrBit ∧ s.dev.str.mode = .rxStreaming ∧ ieOf .thr s = true ∧ iesOf .thr s = false := by decide
theorem witness_PktFallEndsReception :
    let s := midRx 0x04 [0, 1, 2] 0x01
    s.par.pktBit ≠ s.par.thrBit ∧ s.dev.str.mode = .rxStreaming ∧ ieOf .pkt s = true ∧ iesOf .pkt s = true ∧
    s.radio.rxOvf = false ∧ { s with radio.rxOvf := true }.radio.rxOvf = true := by decide
theorem witness_CancelAbandonsTheOperation : midTx.par.pktBit ≠ midTx.par.thrBit := by decide
theorem witness_IgnoredInputsChangeNothing :
    accepted .pktFall ready = false ∧ accepted .thrRise midTx = false ∧ accepted (.txStart [0]) midTx = false := by decide
theorem witness_CountersCountAcceptedEdges :
    nextIs (exec (.strStep (.rxStart 0x40)) ready) (fun _ => accepted (.rxStart 0x40) ready) = true ∧
    nextIs (exec (.strStep .thrFall) midTx) (fun _ => accepted .thrFall midTx) = true ∧
    nextIs (exec (.strStep .thrFall) ready) (fun _ => !accepted .thrFall ready) = true := by decide
theorem witness_StopAndCompose : (List.replicate 255 (0 : Byte)).length ≤ 255 := by decide +kernel
theorem witness_SelectedEdgeSetsTheFlag : ready.par.pktBit ≠ ready.par.thrBit ∧ Line.thr ≠ Line.pkt := by decide
theorem witness_HandlersRunTheSelectedEdge :
    (isrEnabled .pkt bothRequested = true ∧ isrEnabled .pkt ready = false ∧ isrEnabled .thr ready = false) ∧
    (isrEnabled .thr bothRequested = true ∧ bothRequested.dev.str.mode ≠ .txStreaming) ∧
    (isrEnabled .thr midTx = true ∧ fitsTxFifo (txNext midTx) midTx) ∧
    (let s := { midTx with radio.txFifo := List.replicate 33 0 }
     isrEnabled .thr s = true ∧ s.dev.str.mode = .txStreaming ∧ iesOf .thr s = true ∧ ¬fitsTxFifo (txNext s) s) ∧
    (isrEnabled .pkt bothRequested = true ∧ isrEnabled .thr bothRequested = true ∧ bothRequested.par.irqOrder = .any) ∧
    (let s := { bothRequested with par.irqOrder := .pktFirst }
     isrEnabled .pkt s = true ∧ isrEnabled .thr s = true ∧ s.par.irqOrder = .pktFirst) ∧
    (let s := { bothRequested with par.irqOrder := .thrFirst }
     isrEnabled .pkt s = true ∧ isrEnabled .thr s = true ∧ s.par.irqOrder = .thrFirst) := by
  unfold fitsTxFifo; decide +kernel
theorem witness_SendCommandPutsOneBlock :
    (List.replicate 255 (0 : Byte)).length ≤ 255 ∧ 255 < (List.replicate 256 (0 : Byte)).length := by decide +kernel
theorem witness_ReadBlockTakesOneBlock :
    ({ ready with lD2H.avail := [0x06, 0x01, 0x61, 0x04] }.lD2H.avail = 0x06 :: 0x01 :: ([0x61] ++ [0x04]) ∧
      ([0x61] : Bytes).length = (0x01 : Byte).toNat) ∧
    splitBlock ready.lD2H.avail = none ∧ splitBlock [0x06, 0x02, 0x61] = none ∧
    (let s := { ready with host.trh := { acc := [0x06], expv := false, exp := 0, budget := 0 }, lD2H.avail := [0x00] }
     pollBytes s.host.trh s.lD2H.avail = ({ acc := [0x06, 0x00], expv := true, exp := 0, budget := 0 }, []) ∧
     ({ acc := [0x06, 0x00], expv := true, exp := 0, budget := 0 } : Trh).complete = true) ∧
    (let s := { ready with host.trh := { acc := [0x06], expv := false, exp := 0, budget := 0 } }
     pollBytes s.host.trh s.lD2H.avail = (s.host.trh, []) ∧ s.host.trh.complete = false ∧ s.host.trh.budget = 0) ∧
    (let s := { ready with host.trh := { acc := [0x06], expv := false, exp := 0, budget := 3 } }
     pollBytes s.host.trh s.lD2H.avail = (s.host.trh, []) ∧ s.host.trh.complete = false ∧ s.host.trh.budget ≠ 0) := by decide
theorem witness_NoPartialBlockIsDelivered :
    (let t : Trh := { acc := [0x06], expv := false, exp := 0, budget := 0 }
     t.acc.length ≤ 1 ∧ pollBytes t [0x01, 0x61, 0x04] = ({ acc := [0x06, 0x01, 0x61], expv := true, exp := 1, budget := 0 }, [0x04]) ∧
     ({ acc := [0x06, 0x01, 0x61], expv := true, exp := 1, budget := 0 } : Trh).complete = true) ∧
    (let t : Trh := { acc := [0x06, 0x02], expv := true, exp := 2, budget := 0 }
     2 ≤ t.acc.length ∧ t.acc.getD 1 0 = t.exp ∧
     pollBytes t [0x61] = ({ acc := [0x06, 0x02, 0x61], expv := true, exp := 2, budget := 0 }, []) ∧
     ({ acc := [0x06, 0x02, 0x61], expv := true, exp := 2, budget := 0 } : Trh).complete = false) := by decide
theorem witness_PlainReadReturnsTheBlock : awaiting ready.host.ctl = false ∧ (List.replicate 255 (0 : Byte)).length ≤ 255 := by decide +kernel
theorem witness_HostClassifiesTheAnswer :
    (Cmd.echoTest = .echoTest ∧ ready.host.sch.armed = false ∧ ready.host.ctl = [] ∧
      { ready with host.ctl := [.sleep 1, .call .schedLoop] }.host.ctl = [.sleep 1, .call .schedLoop]) ∧
    ¬(Cmd.tx = .radioStatus ∨ Cmd.tx = .echoTest) ∧
    (List.replicate 255 (0 : Byte)).length ≤ 255 ∧ 255 < (List.replicate 256 (0 : Byte)).length ∧
    (waiting (.awaitReply .tx)).host.ctl = .awaitReply .tx :: [.loopTail] ∧ ([] : Bytes).length = (0 : Byte).toNat ∧
    (List.replicate 255 (0 : Byte)).length = (255 : Byte).toNat := by decide +kernel
theorem witness_HostInitTriesTwice :
    ready.host.cfg.parms.length ≤ 255 ∧ (waiting (.awaitInit 1)).host.ctl = .awaitInit 1 :: [.loopTail] ∧
    (waiting (.awaitInit 2)).host.ctl = .awaitInit 2 :: [.loopTail] := by decide
theorem witness_DevMainMovesBytesAndBlocks :
    ready.lH2D.avail = [] ∧ ready.dev.outq = [] ∧ goodRx.dev.outq = [0x04, 0x00] :: [] ∧
    (let s := { ready with lH2D.avail := [0x04, 0x00] }
     s.lH2D.avail = 0x04 :: [0x00] ∧ s.dev.trd.expv = false ∧ s.dev.trd.acc = []) ∧
    (let s := { ready with dev.trd.acc := [0x04], lH2D.avail := [0x00] }
     s.lH2D.avail = 0x00 :: [] ∧ s.dev.trd.expv = false ∧ 1 ≤ s.dev.trd.acc.length ∧
     nextIs (exec (decodeCommand 0x04 []) { s with dev.trd := { acc := [0x04, 0x00], expv := true, exp := 0 }, lH2D.avail := [],
                                                   dev.gie := false }) (fun _ => true) = true) := by decide
theorem witness_SendBlockRoundTrip :
    (List.replicate 254 (0 : Byte)).length ≤ 254 ∧ (waiting .awaitTx).host.ctl = .awaitTx :: [.loopTail] := by decide +kernel
theorem witness_ReceiveBlockRoundTrip :
    (3 ≤ (3 : Byte).toNat ∧ (3 : Byte).toNat ≤ 253) ∧ (3 ≤ (253 : Byte).toNat ∧ (253 : Byte).toNat ≤ 253) ∧
    (waiting .awaitRx).host.ctl = .awaitRx :: [.loopTail] ∧ ([0x01, 0x41, 0xB0, 0x80] : Bytes).length ≤ 255 := by decide
theorem witness_SegmentsCoverThePayload : 3 ≤ 3 ∧ blockCount (List.replicate 256 (0 : Byte)).length 3 ≤ 256 := by decide +kernel
theorem witness_SendPacketSendsEveryBlock :
    (2 < 3 ∨ 253 < 2 ∨ 256 < blockCount 257 3) ∧ blockCount ([0x41, 0x42, 0x43, 0x44, 0x45] : Bytes).length 5 ≤ 256 ∧
    (let s := { ready with host.seg.nblk := 2, host.seg.idx := 0, host.res := .ok }
     s.host.seg.idx < blockCount 5 5 ∧ s.host.seg.nblk = blockCount 5 5 ∧ s.host.res = .ok ∧
     s.host.seg.idx + 1 < s.host.seg.nblk) ∧
    (let s := { ready with host.seg.nblk := 2, host.seg.idx := 1, host.res := .ok }
     s.host.res = .ok ∧ s.host.seg.nblk ≤ s.host.seg.idx + 1) ∧
    { ready with host.res := .timeout }.host.res ≠ .ok := by decide
theorem witness_ReceivePacketReassembles :
    (2 < 3 ∨ 253 < 2) ∧ (3 ≤ 253 ∧ 253 ≤ 253) ∧
    (∀ cd d, { ready with host.res := .timeout }.host.res ≠ .received cd d) ∧
    (let s := { ready with host.res := .received 0x00 [0x44], host.seg.nread := 1, host.seg.expcnt := 2 }
     s.host.res = .received 0x00 [0x44] ∧ (0x00 : Byte).toNat + (s.host.seg.nread + 1) = s.host.seg.expcnt) ∧
    (let s := { ready with host.res := .received 0x02 [0x41], host.seg.nread := 0 }
     s.host.res = .received 0x02 [0x41] ∧ s.host.seg.nread = 0 ∧ (0x02 : Byte) ≠ 0) ∧
    (let s := { ready with host.res := .received 0x01 [0x44], host.seg.nread := 1, host.seg.expcnt := 2 }
     s.host.seg.nread ≠ 0 ∧ (0x01 : Byte).toNat + (s.host.seg.nread + 1) ≠ s.host.seg.expcnt) := by
  refine ⟨by decide, by decide, ?_, by decide, by decide, by decide⟩
  intro cd d h; cases h
theorem witness_SegmentationRoundTrip :
    ([0x41, 0x42, 0x43] : Bytes) ≠ [] ∧ 3 ≤ 3 ∧ ([0x41, 0x42, 0x43] : Bytes).length ≤ 256 * (3 - 2) ∧
    ready.host.seg.asm = [] ∧ ready.host.seg.nread = 0 := by decide
theorem witness_SchedulerLoopOrder : ready.host.sch.halt = false ∧ { ready with host.sch.halt := true }.host.sch.halt = true := by decide
theorem witness_Step1PollsTheRadioSide :
    (ready.host.sch.armed = false ∨ ready.lD2H.avail = []) ∧
    (let s := { ready with host.sch.armed := true, lD2H.avail := [0x03] }; s.host.sch.armed = true ∧ s.lD2H.avail ≠ []) ∧
    (let s := { ready with host.res := .packet [1, 2], par.rbufCap := 2 }
     s.host.res = .packet [1, 2] ∧ s.host.sch.rbuf.length + 2 ≤ s.par.rbufCap) ∧
    (let s := { ready with host.res := .packet [1, 2], par.rbufCap := 1 }
     s.host.res = .packet [1, 2] ∧ s.par.rbufCap < s.host.sch.rbuf.length + 2) ∧
    { ready with host.res := .timeout }.host.res = .timeout ∧ { ready with host.res := .packet [] }.host.res = .packet [] := by decide
theorem witness_Step2PollsTheTerminalSide :
    0 = min ready.termIn.length (ready.par.tbufCap - ready.host.sch.tbuf.length) ∧
    (let s := { ready with termIn := [0xC0, 0x00], par.tbufCap := 1 }
     1 = min s.termIn.length (s.par.tbufCap - s.host.sch.tbuf.length) ∧ 0 < 1) := by decide
theorem witness_Step3ForwardsTheRadioBuffer :
    (let s := { ready with host.sch.rbuf := [0x41], host.cfg.radioWin := 30, now := 31 }
     s.host.sch.rbuf ≠ [] ∧ s.now - s.host.sch.tlast > s.host.cfg.radioWin) ∧
    (let s := { ready with host.sch.rbuf := [0x41], host.cfg.radioWin := 30, now := 30 }
     ¬(s.host.sch.rbuf ≠ [] ∧ (s.host.sch.rxtrig = true ∨ s.host.cfg.radioWin = 0 ∨
        s.now - s.host.sch.tlast > s.host.cfg.radioWin))) := by decide
theorem witness_Step4TransmitsTheTerminalBuffer :
    (let s := { ready with host.sch.tbuf := [0xC0, 0xC0], host.cfg.serialWin := 50, now := 51 }
     s.host.sch.tbuf ≠ [] ∧ s.now - s.host.sch.tlast > s.host.cfg.serialWin ∧ s.host.sch.armed = false) ∧
    (let s := { ready with host.sch.tbuf := [0xC0, 0xC0], host.cfg.serialWin := 50, now := 50 }
     ¬(s.host.sch.tbuf ≠ [] ∧ (s.host.sch.txtrig = true ∨ s.host.cfg.serialWin = 0 ∨
        s.now - s.host.sch.tlast > s.host.cfg.serialWin))) ∧
    { ready with host.sch.armed := true }.host.sch.armed = true ∧
    nextIs (exec (.kissProcess [0xC0, 0xC0]) ready) (fun u => decide (u.host.kiss.rem = [])) = true ∧
    nextIs (exec (.kissProcess [0xC0, 0x00, 0xC0]) ready) (fun u => decide (u.host.kiss.rem ≠ [])) = true ∧
    { ready with host.res := .ok }.host.res = .ok ∧ { ready with host.res := .timeout }.host.res = .timeout ∧
    (ready.host.res ≠ .ok ∧ ready.host.res ≠ .timeout) := by decide
theorem witness_Step5ForcesAFlush :
    (let s := { ready with host.sch.tri := .rxActive, host.cfg.radioWin := 100, now := 101 }
     s.host.sch.rxtrig = false ∧ s.host.sch.txtrig = false ∧ s.host.sch.tri = .rxActive ∧ s.host.cfg.radioWin ≠ 0 ∧
     s.now - s.host.sch.tlast > s.host.cfg.radioWin) ∧
    (let s := { ready with host.sch.tri := .txActive, host.cfg.serialWin := 100, now := 101 }
     s.host.sch.rxtrig = false ∧ s.host.sch.txtrig = false ∧ s.host.sch.tri = .txActive ∧ s.host.cfg.serialWin ≠ 0 ∧
     s.now - s.host.sch.tlast > s.host.cfg.serialWin) ∧
    (let s := { ready with host.sch.tri := .rxActive, host.cfg.radioWin := 100, now := 100 }
     s.host.sch.tri = .rxActive ∧ s.now - s.host.sch.tlast ≤ s.host.cfg.radioWin) := by decide
theorem witness_SchedulerHelpers :
    ready.host.cfg.b ≤ 255 ∧ (waiting .awaitCancel).host.ctl = .awaitCancel :: [.loopTail] ∧ (0x03 : Byte) ≠ 0x04 := by decide
theorem witness_StepRunsTheDecodedInstruction :
    configOk ready = true ∧ (Instr.rxCancel []).wf = true ∧
    (let s := { ready with agenda := [.devRecv], dev.trd.acc := [0x04], lH2D.avail := [0x00] }
     s.agenda = .devRecv :: [] ∧ s.lH2D.avail = 0x00 :: [] ∧ (trdPush s.dev.trd 0x00).complete = true ∧
     decodesTo .command [0x04, 0x00] (.rxCancel []) [] = true) ∧
    (let s := { ready with agenda := [.host], host.ctl := [.call .armRx] }
     s.agenda = .host :: [] ∧ s.host.ctl = .call .armRx :: [] ∧ Instr.armRx.wf = true) ∧
    { ready with agenda := [.direct .isrPkt] }.agenda = .direct .isrPkt :: [] := by decide

/-- The state the invariant's witnesses use has the invariant. -/
theorem goodRx_inv : Inv goodRx where
  trdHead := by decide
  trdBody := by decide
  trhBound := by decide
  outqWhole := by
    intro b hb
    have e : b = [0x04, 0x00] := by simpa [goodRx] using hb
    exact ⟨0x04, [], by decide, e⟩
  txLen := by decide
  txPos := by decide
  rxBound := by decide
  fifoBound := by decide
  txFifoIdle := by decide
  refillRoom := by decide
  thrPin := by decide
  idleLines := by decide
  gieOn := by decide
  bufBound := by decide
  triBytes := by decide
  ctlOk := by decide
theorem witness_EveryStepKeepsInv :
    Inv goodRx ∧ nextIs (step goodRx) (fun t => decide (t.dev.str.cntPktRise = 1)) = true := ⟨goodRx_inv, by decide⟩
theorem witness_NoStepFaults : Inv goodRx ∧ directNext goodRx = false := ⟨goodRx_inv, by decide⟩
theorem witness_OnlyBadConfigurationsAreRefused :
    refusedIs (step { ready with host.cfg.b := 2 }) .badConfig = true ∧
    (let s := { ready with agenda := [.direct (.kissUnlisted 0 4 none)] }
     configOk s = true ∧ s.agenda = .direct (.kissUnlisted 0 4 none) :: [] ∧ (Instr.kissUnlisted 0 4 none).wf = false ∧
     hostOp (.kissUnlisted 0 4 none) = true) ∧
    (let s := { ready with agenda := [.direct (.evTxStart [])] }
     configOk s = true ∧ s.agenda = .direct (.evTxStart []) :: [] ∧ (Instr.evTxStart []).wf = false ∧
     hostOp (.evTxStart []) = false) ∧
    254 < (List.replicate 255 (0 : Byte)).length ∧
    ((2 : Byte).toNat < 3 ∨ 253 < (2 : Byte).toNat) ∧ ((254 : Byte).toNat < 3 ∨ 253 < (254 : Byte).toNat) := by decide +kernel
/-- `s` has the turn `τ`, which takes it from `u`, the state without that turn, to a next state that passes. -/
def turnTakes (s u : State) (τ : Turn) (p : State → Bool) : Bool :=
  decide (nextTurn s = (some τ, u)) && nextIs (step s) p
theorem witness_SleepAndEnvironmentTurns :
    turnTakes { ready with agenda := [.tick 3] } ready (.tick 3) (fun t => decide (t.now ≠ ready.now)) = true ∧
    (let s := { ready with agenda := [.host], host.ctl := [.sleep 3] }
     turnTakes s { s with agenda := [] } .host (fun t => decide (t.now ≠ s.now)) = true) ∧
    (let s := { ready with agenda := [.host], host.ctl := [.pollSleep, .poll], host.trh.budget := 3 }
     turnTakes s { s with agenda := [] } .host (fun t => decide (t.now ≠ s.now)) = true) := by decide
theorem witness_ConfigurationIsNeverWritten : nextIs (step { ready with agenda := [.tick 3] }) (fun t => decide (t.now = 3)) = true := by decide
theorem witness_HalvesShareOnlyTheLink :
    nextIs (exec .armRx ready) (fun _ => hostOp .armRx) = true ∧
    nextIs (exec (.echoTest []) ready) (fun _ => !hostOp (.echoTest [])) = true := by decide
theorem witness_LinkDeliversInOrder :
    (∀ τ ∈ [Turn.linkH2D 1, .linkD2H 1, .devRecv, .devSend],
      let s := { ready with lH2D := { avail := [0x04], flight := [1, 2] }, lD2H := { avail := [0x03], flight := [1, 2] },
                            dev.outq := [[0x04, 0x00]] }
      turnTakes { s with agenda := [τ] } s τ (fun t => decide (t.lH2D ≠ s.lH2D) || decide (t.lD2H ≠ s.lD2H)) = true ∧
      startTurn τ = false) ∧
    (let s := { ready with host.ctl := [.call .cancelRx] }
     turnTakes { s with agenda := [.host] } s .host (fun t => decide (t.lH2D.flight = [0x04, 0x00])) = true ∧
     startTurn .host = false ∧ hostOp .cancelRx = true) ∧
    (let s := { ready with host.ctl := [.poll], lD2H.avail := [0x04, 0x00, 0x03] }
     turnTakes { s with agenda := [.host] } s .host (fun t => decide (t.lD2H.avail = [0x03])) = true) := by decide
theorem witness_StreamingEndsByFallOrCancel :
    nextIs (exec (.evRxStart 0x40) ready) (fun t => decide (t.dev.str.mode ≠ ready.dev.str.mode)) = true ∧
    nextIs (exec .isrPkt (midRx 0x04 [0, 1, 2] 0x01)) (fun t => decide (t.dev.str.mode = .idle)) = true ∧
    iesOf .pkt (midRx 0x04 [0, 1, 2] 0x01) = true ∧
    nextIs (exec (.rxCancel []) midTx) (fun t => decide (t.dev.str.mode = .idle)) = true := by decide
theorem witness_HaltOnlyByAbort :
    (ready.host.sch.halt = false ∧ nextIs (exec (.kissProcess [0xC0, 0xFF, 0xC0]) ready) (fun t => t.host.sch.halt) = true) ∧
    nextIs (runTask .flushTProcess { ready with host.sch.tbuf := [0xC0, 0xFF, 0xC0] }) (fun t => t.host.sch.halt) = true ∧
    (let s := { ready with host.sch.halt := true }
     s.host.sch.halt = true ∧ nextIs (exec .schedStart s) (fun t => !t.host.sch.halt) = true ∧
     nextIs (runTurn (.hostStart 0 0) s) (fun t => !t.host.sch.halt) = true) := by decide
theorem witness_ResetLeavesTheStatedValues :
    ready.par = midTx.par ∧ ready.dev ≠ midTx.dev ∧ ready.now = (waiting .poll).now ∧ ready.host.cfg = (waiting .poll).host.cfg ∧
    ready.host ≠ (waiting .poll).host ∧ nextIs (runTurn .devPowerUp midTx) (fun _ => true) = true ∧
    nextIs (runTurn (.hostStart 7 8) (waiting .poll)) (fun _ => true) = true := by decide
theorem witness_RadioMovesByteByByte :
    (let s := { midTx with radio.synced := false }; s.radio.rstate = .tx ∧ s.radio.synced = false) ∧
    (midTx.radio.rstate = .tx ∧ midTx.radio.synced = true ∧ midTx.radio.sent < midTx.radio.airLen ∧
      midTx.radio.txFifo = 0x55 :: List.replicate 31 0x55) ∧
    (let s := { midTx with radio.txFifo := [] }; s.radio.sent < s.radio.airLen ∧ s.radio.txFifo = []) ∧
    (let s := { midTx with radio.sent := 100 }; s.radio.synced = true ∧ s.radio.airLen ≤ s.radio.sent) ∧
    (let s := { midRx 0x40 [] 0 with radio.inPkt := false }; s.radio.rstate = .rx ∧ s.radio.inPkt = false ∧ ([0] : Bytes) ≠ []) ∧
    ready.radio.rstate ≠ .rx ∧
    (let s := { midRx 0x40 (List.replicate 63 0) 0 with radio.q := [1] }
     s.radio.rstate = .rx ∧ s.radio.inPkt = true ∧ s.radio.q = 1 :: [] ∧ s.radio.rxFifo.length < s.par.fifoSize) ∧
    (let s := { midRx 0x40 (List.replicate 64 0) 0 with radio.q := [1] }
     s.radio.q = 1 :: [] ∧ s.par.fifoSize ≤ s.radio.rxFifo.length) ∧
    (midRx 0x40 [] 0).radio.q = [] := by decide

end Sys2Proof.Tests
end

section
/-! SUPPORT. What a run of an instruction, a task or a turn leaves alone, and that none of them refuses: the frame of the host half, the
frame of the device half, and the ticks a turn lets pass. -/

namespace Sys2Proof.Machine

/-! ## Outcomes that are not refused -/

/-- The outcome is no refusal, and a next state has `P`. -/
def Runs (P : State → Prop) : Out → Prop
  | .next t => P t
  | .fault _ => True
  | .refused _ => False

theorem Runs.of_next {P : State → Prop} {o : Out} {t : State} (h : Runs P o) (e : o = .next t) : P t := by
  subst e; exact h

theorem Runs.ne_refused {P : State → Prop} {o : Out} (h : Runs P o) (r : Refusal) : o ≠ .refused r := by
  rintro rfl; exact h

theorem Runs.mono {P Q : State → Prop} {o : Out} (h : Runs P o) (hpq : ∀ t, P t → Q t) : Runs Q o := by
  cases o with
  | next t => exact hpq t h
  | fault _ => trivial
  | refused _ => exact h

theorem Runs.andThen {P Q : State → Prop} {o : Out} {k : State → Out} (h : Runs P o) (hk : ∀ u, P u → Runs Q (k u)) :
    Runs Q (andThen o k) := by
  cases o with
  | next u => exact hk u h
  | fault _ => trivial
  | refused _ => exact h

/-! ## The host half's frame (R20)

`HostOnly` speaks of projections that the host's updates do not touch, so `HostOnly (setRes r s) t` and `HostOnly s t` are the same
proposition by computation: an update before or after a shared operation needs no lemma of its own. -/

/-- What no operation of the host half changes: the parameters, the clock, the configuration registers, the device half, the radio, the
agenda, the free counter. -/
def HostOnly (s t : State) : Prop :=
  t.par = s.par ∧ t.now = s.now ∧ t.host.cfg = s.host.cfg ∧ t.dev = s.dev ∧ t.radio = s.radio ∧ t.agenda = s.agenda ∧
    t.freeCtr = s.freeCtr

theorem HostOnly.refl (s : State) : HostOnly s s := ⟨rfl, rfl, rfl, rfl, rfl, rfl, rfl⟩

theorem HostOnly.trans {s t u : State} (h : HostOnly s t) (k : HostOnly t u) : HostOnly s u := by
  obtain ⟨hpar, hnow, hcfg, hdev, hradio, hagenda, hfree⟩ := h
  obtain ⟨kpar, know, kcfg, kdev, kradio, kagenda, kfree⟩ := k
  exact ⟨kpar.trans hpar, know.trans hnow, kcfg.trans hcfg, kdev.trans hdev, kradio.trans hradio, kagenda.trans hagenda,
    kfree.trans hfree⟩

/-- A step taken only under a condition. -/
theorem HostOnly.ite {s t : State} (h : HostOnly s t) (c : Bool) : HostOnly s (if c then t else s) := by
  cases c
  · exact .refl s
  · exact h

theorem sendCommandOp_hostOnly (c : Cmd) (p : Bytes) (s : State) : HostOnly s (sendCommandOp c p s) := by
  unfold sendCommandOp; split <;> exact .refl s

theorem initFailed_hostOnly (n : Nat) (s : State) : HostOnly s (initFailed n s) := by
  unfold initFailed; dsimp only; split <;> exact .refl s

theorem logFailure_hostOnly (r : Result) (s : State) : HostOnly s (logFailure r s) := by
  unfold logFailure; split <;> exact .refl s

theorem endExchange_hostOnly (r : Result) (s : State) : HostOnly s (endExchange r s) := logFailure_hostOnly r s

theorem answerInit_hostOnly (n : Nat) (ty : Byte) (s : State) : HostOnly s (answerInit n ty s) := by
  unfold answerInit; split
  · exact .refl s
  · exact initFailed_hostOnly n s

theorem answerCancel_hostOnly (ty : Byte) (s : State) : HostOnly s (answerCancel ty s) := by
  unfold answerCancel; split <;> exact .refl s

theorem answerReply_hostOnly (c : Cmd) (ty : Byte) (p : Bytes) (s : State) : HostOnly s (answerReply c ty p s) := by
  unfold answerReply; split
  · exact .refl s
  · exact endExchange_hostOnly _ s

/-- Whatever waits for a block keeps the frame when it gets one (R101, R113). -/
theorem hostAnswer_hostOnly (ty : Byte) (p : Bytes) (s : State) : HostOnly s (hostAnswer ty p s) := by
  unfold hostAnswer; split
  · exact answerInit_hostOnly _ ty (setCtl _ s)
  · exact endExchange_hostOnly _ (setCtl _ s)
  · exact endExchange_hostOnly _ (setCtl _ s)
  · exact answerCancel_hostOnly ty (setCtl _ s)
  · exact answerReply_hostOnly _ ty p (setCtl _ s)
  · exact .refl s

/-- Whatever waits for a block keeps the frame when none comes (R281). -/
theorem hostTimeout_hostOnly (s : State) : HostOnly s (hostTimeout s) := by
  unfold hostTimeout; split
  · exact initFailed_hostOnly _ (setCtl _ s)
  all_goals exact .refl s

theorem pollOp_hostOnly (s : State) : Runs (HostOnly s) (pollOp s) := by
  unfold pollOp; dsimp only; split
  · rw [replyDispatch_eq]; exact hostAnswer_hostOnly _ _ _
  · split
    · exact hostTimeout_hostOnly _
    · exact HostOnly.refl s

theorem exchangeOp_hostOnly (c : Cmd) (p : Bytes) (s : State) : HostOnly s (exchangeOp c p s) := by
  unfold exchangeOp; split <;> exact sendCommandOp_hostOnly c p s

theorem receiveBlockOp_hostOnly (b : Byte) (t : Nat) (skipSend : Bool) (s : State) :
    HostOnly s (receiveBlockOp b t skipSend s) := by
  unfold receiveBlockOp; split
  · exact .refl s
  · exact sendCommandOp_hostOnly .rx [b] s

theorem packetBlockOp_hostOnly (p : Bytes) (b delay : Nat) (s : State) : HostOnly s (packetBlockOp p b delay s) :=
  sendCommandOp_hostOnly .tx _ (pushTasks _ s)

theorem packetSentOp_hostOnly (p : Bytes) (b delay : Nat) (s : State) : HostOnly s (packetSentOp p b delay s) := by
  unfold packetSentOp; split
  · dsimp only; split <;> exact .refl s
  · exact .refl s

theorem blockReceivedOp_hostOnly (b tInter : Nat) (s : State) : HostOnly s (blockReceivedOp b tInter s) := by
  unfold blockReceivedOp; split
  · dsimp only; repeat' split
    all_goals exact .refl s
  · exact .refl s

theorem execSendPacket_hostOnly (p : Bytes) (b delay : Nat) (s : State) : Runs (HostOnly s) (execSendPacket p b delay s) := by
  unfold execSendPacket; dsimp only; split
  · exact HostOnly.refl s
  · split
    · exact HostOnly.refl s
    · exact packetBlockOp_hostOnly p b delay _

theorem execSendBlock_hostOnly (cd : Byte) (chunk : Bytes) (s : State) : Runs (HostOnly s) (execSendBlock cd chunk s) := by
  unfold execSendBlock; split
  · exact sendCommandOp_hostOnly .tx _ s
  · exact HostOnly.refl s

theorem execReceivePacket_hostOnly (b tFirst tInter : Nat) (armed : Bool) (s : State) :
    Runs (HostOnly s) (execReceivePacket b tFirst tInter armed s) := by
  unfold execReceivePacket; split <;> exact HostOnly.refl s

theorem execReceiveBlock_hostOnly (b : Byte) (t : Nat) (skip : Bool) (s : State) :
    Runs (HostOnly s) (execReceiveBlock b t skip s) := by
  unfold execReceiveBlock; split
  · exact receiveBlockOp_hostOnly b t skip s
  · exact HostOnly.refl s

/-! The framer. -/

theorem kissByte_hostOnly (b : Byte) (s : State) : HostOnly s (kissByte b s) := by
  rw [kissByte_frame]; exact .refl s

theorem kissBytes_hostOnly (bs : Bytes) (s : State) : HostOnly s (kissBytes bs s) := by
  induction bs generalizing s with
  | nil => exact .refl s
  | cons b bs ih => exact (kissByte_hostOnly b s).trans (ih _)

theorem kissFrame_hostOnly (f : Bytes) (s : State) : HostOnly s (kissFrame f s) := by
  rw [kissFrame_frame]; exact .refl s

theorem kissLoop_hostOnly (fuel : Nat) (buf : Bytes) (s : State) : HostOnly s (kissLoop fuel buf s) := by
  induction fuel generalizing buf s with
  | zero => exact .refl s
  | succ fuel ih =>
    unfold kissLoop; split
    · exact .refl s
    · exact (kissFrame_hostOnly _ s).trans (ih _ _)

theorem kissRun_hostOnly (buf : Bytes) (s : State) : HostOnly s (kissRun buf s) := by
  have hresync : ∀ u : State, HostOnly u (resync buf u) := by
    intro u; unfold resync; split <;> exact .refl u
  exact HostOnly.trans (t := resync buf { s with host.kiss.rem := [] }) (hresync { s with host.kiss.rem := [] })
    (kissLoop_hostOnly _ _ _)

theorem setKeyup_hostOnly (v : Option Byte) (s : State) : HostOnly s (setKeyup v s) := by cases v <;> exact .refl s
theorem setPersist_hostOnly (v : Option Byte) (s : State) : HostOnly s (setPersist v s) := by cases v <;> exact .refl s
theorem setSlottime_hostOnly (v : Option Byte) (s : State) : HostOnly s (setSlottime v s) := by cases v <;> exact .refl s
theorem setKeydown_hostOnly (v : Option Byte) (s : State) : HostOnly s (setKeydown v s) := by cases v <;> exact .refl s

theorem onFesc_hostOnly (s : State) : HostOnly s (onFesc s) := by unfold onFesc; split <;> exact .refl s
theorem onTfend_hostOnly (s : State) : HostOnly s (onTfend s) := by unfold onTfend; split <;> exact .refl s
theorem onTfesc_hostOnly (s : State) : HostOnly s (onTfesc s) := by unfold onTfesc; split <;> exact .refl s

/-! The scheduler. -/

theorem clearStateOp_hostOnly (side : Side) (s : State) : HostOnly s (clearStateOp side s) := by
  cases side <;> exact .refl s

theorem flushROp_hostOnly (s : State) : HostOnly s (flushROp s) := by
  unfold flushROp; dsimp only; split <;> exact .refl s

theorem flushTEndOp_hostOnly (s : State) : HostOnly s (flushTEndOp s) := by
  unfold flushTEndOp; dsimp only; split <;> exact .refl s

theorem flushTProcessOp_hostOnly (s : State) : HostOnly s (flushTProcessOp s) := by
  unfold flushTProcessOp; dsimp only; split
  · exact (kissRun_hostOnly _ s).trans (flushTEndOp_hostOnly _)
  · exact kissRun_hostOnly _ s

theorem flushTSentOp_hostOnly (s : State) : HostOnly s (flushTSentOp s) := by
  unfold flushTSentOp; split
  · exact .refl s
  · exact .refl s
  · exact flushTEndOp_hostOnly s

theorem flushTOp_hostOnly (s : State) : HostOnly s (flushTOp s) := by
  unfold flushTOp; split
  · exact .refl s
  · exact flushTProcessOp_hostOnly s

theorem step1DoneOp_hostOnly (s : State) : HostOnly s (step1DoneOp s) := by
  unfold step1DoneOp; dsimp only; split
  · split
    · exact .refl s
    · split <;> exact .refl s
  all_goals exact .refl s

theorem loopTailOp_hostOnly (s : State) : HostOnly s (loopTailOp s) := by
  unfold loopTailOp; split <;> exact .refl s

theorem execStep1_hostOnly (s : State) : Runs (HostOnly s) (execStep1 s) := by
  unfold execStep1; dsimp only; split <;> exact HostOnly.refl s

theorem execStep2_hostOnly (s : State) : Runs (HostOnly s) (execStep2 s) := by
  unfold execStep2; dsimp only; split <;> exact HostOnly.refl s

theorem execStep3_hostOnly (s : State) : Runs (HostOnly s) (execStep3 s) :=
  HostOnly.ite (flushROp_hostOnly (atStep 3 s)) _

theorem execStep4_hostOnly (s : State) : Runs (HostOnly s) (execStep4 s) :=
  HostOnly.ite (flushTOp_hostOnly (atStep 4 s)) _

/-- The two tests of `STEP5` follow one another (R225, R233). -/
theorem execStep5_hostOnly (s : State) : Runs (HostOnly s) (execStep5 s) := by
  unfold execStep5; dsimp only; split
  · exact (HostOnly.ite (flushROp_hostOnly (atStep 5 s)) _).trans (HostOnly.ite (flushTOp_hostOnly _) _)
  · exact HostOnly.refl s

/-- An operation of the host half answers a next state with its frame kept, and is never refused (R20, R289). -/
theorem exec_hostOnly {i : Instr} (h : hostOp i = true) (s : State) : Runs (HostOnly s) (exec i s) := by
  cases i with
  | init | tx | rx | rxCancel | radioStatus | echoTest | stOk | stTxUnderflow | stTxNotEmpty | stRxOverflow | evPktRise | evPktFall
  | evThrRise | evThrFall | evCancel | evTxStart | evRxStart | devRecv | devDispatch | devSend | strStep | stopLines
  | composeStatus | composeData | isrPkt | isrThr => cases h
  | blockReserved dir ty p =>
    cases dir with
    | h2d => cases h
    | d2h => exact hostAnswer_hostOnly ty p s
  | initEcho | txAck | rxAck | rxCancelEcho | radioStatusReply | echoTestReply | txKo | rxKo => exact hostAnswer_hostOnly _ _ s
  | fesc => exact onFesc_hostOnly s
  | tfend => exact onTfend_hostOnly s
  | tfesc => exact onTfesc_hostOnly s
  | kissTxdelay _ v => exact setKeyup_hostOnly v s
  | kissPersist _ v => exact setPersist_hostOnly v s
  | kissSlottime _ v => exact setSlottime_hostOnly v s
  | kissTxtail _ v => exact setKeydown_hostOnly v s
  | unescape frame => exact kissBytes_hostOnly frame (kissStart s)
  | kissProcess buf => exact kissRun_hostOnly buf s
  | sendCommand c p => exact sendCommandOp_hostOnly c p s
  | readBlock => exact pollOp_hostOnly _
  | hostInit => exact sendCommandOp_hostOnly _ _ s
  | sendPacket p b delay => exact execSendPacket_hostOnly p b delay s
  | sendBlock cd chunk => exact execSendBlock_hostOnly cd chunk s
  | receivePacket b tFirst tInter armed => exact execReceivePacket_hostOnly b tFirst tInter armed s
  | receiveBlock b t skip => exact execReceiveBlock_hostOnly b t skip s
  | step1 => exact execStep1_hostOnly s
  | step2 => exact execStep2_hostOnly s
  | step3 => exact execStep3_hostOnly s
  | step4 => exact execStep4_hostOnly s
  | step5 => exact execStep5_hostOnly s
  | clearState side => exact clearStateOp_hostOnly side s
  | flushR => exact flushROp_hostOnly s
  | flushT => exact flushTOp_hostOnly s
  | fend | kissData | kissAbort | kissUnlisted | tokenize | escape | interpretCommand | schedStart | schedLoop | elapsed
  | armRx | cancelRx => exact HostOnly.refl s

/-! ## The device half's frame (R20) -/

/-- What no operation of the device half and no step of the radio changes: the parameters, the clock, the host half, the terminal
channels, the log, the agenda. -/
def DevOnly (s t : State) : Prop :=
  t.par = s.par ∧ t.now = s.now ∧ t.host = s.host ∧ t.termIn = s.termIn ∧ t.termOut = s.termOut ∧ t.log = s.log ∧
    t.agenda = s.agenda

theorem DevOnly.refl (s : State) : DevOnly s s := ⟨rfl, rfl, rfl, rfl, rfl, rfl, rfl⟩

theorem DevOnly.trans {s t u : State} (h : DevOnly s t) (k : DevOnly t u) : DevOnly s u := by
  obtain ⟨hpar, hnow, hhost, hin, hout, hlog, hagenda⟩ := h
  obtain ⟨kpar, know, khost, kin, kout, klog, kagenda⟩ := k
  exact ⟨kpar.trans hpar, know.trans hnow, khost.trans hhost, kin.trans hin, kout.trans hout, klog.trans hlog,
    kagenda.trans hagenda⟩

/-- What the streamer leaves alone is more than the device half's frame. -/
theorem SameElsewhere.devOnly {s t : State} (h : SameElsewhere s t) : DevOnly s t := by
  obtain ⟨hpar, hnow, hhost, _, _, hin, hout, hlog, hagenda, _⟩ := h
  exact ⟨hpar, hnow, hhost, hin, hout, hlog, hagenda⟩

/-! The streamer's four transitions that move bytes answer a next state or a fault of R63. -/

theorem txSetup_ne_refused (p : Bytes) (s : State) (r : Refusal) : txSetup p s ≠ .refused r := by
  by_cases hf : fitsTxFifo (txHead p s) s
  · rw [txSetup_of_fits p s hf]; simp
  · rw [txSetup_of_not_fits p s hf]; simp

theorem refill_ne_refused (s : State) (r : Refusal) : refill s ≠ .refused r := by
  by_cases hf : fitsTxFifo (txNext s) s
  · rw [refill_of_fits s hf]; simp
  · rw [refill_of_not_fits s hf]; simp

theorem drain_ne_refused (s : State) (r : Refusal) : drain s ≠ .refused r := by
  rw [drain_next s _ rfl]; simp

theorem rxEnd_ne_refused (s : State) (r : Refusal) : rxEnd s ≠ .refused r := by
  cases ho : s.radio.rxOvf with
  | true => rw [rxEnd_of_overflow s ho]; simp
  | false => rw [rxEnd_of_no_overflow s _ ho rfl]; simp

/-- No input of the streamer is refused: one it does not expect is ignored (R160). -/
theorem strStepOp_ne_refused (ev : Event) (s : State) (r : Refusal) : strStepOp ev s ≠ .refused r := by
  unfold strStepOp
  cases ev with
  | txStart p =>
    cases s.dev.str.mode with
    | idle => exact txSetup_ne_refused p s r
    | txStreaming | rxStreaming => simp
  | rxStart | pktRise => cases s.dev.str.mode <;> simp
  | pktFall =>
    cases s.dev.str.mode with
    | idle | txStreaming => simp
    | rxStreaming =>
      dsimp only; split
      · exact rxEnd_ne_refused s r
      · simp
  | thrRise =>
    cases s.dev.str.mode with
    | idle | txStreaming => simp
    | rxStreaming =>
      dsimp only; split
      · exact drain_ne_refused s r
      · simp
  | thrFall =>
    cases s.dev.str.mode with
    | idle | rxStreaming => simp
    | txStreaming =>
      dsimp only; split
      · exact refill_ne_refused s r
      · simp
  | cancel => simp

theorem strStepOp_devOnly (ev : Event) (s : State) : Runs (DevOnly s) (strStepOp ev s) := by
  cases h : strStepOp ev s with
  | next t => exact (strStepOp_elsewhere h).devOnly
  | fault _ => trivial
  | refused r => exact strStepOp_ne_refused ev s r h

theorem composeStatusOp_devOnly (ty : BlockType) (st : Byte) (s : State) : DevOnly s (composeStatusOp ty st s) :=
  (composeStatusOp_elsewhere ty st s).devOnly

theorem reportTxError_devOnly (st : Byte) (s : State) : DevOnly s (reportTxError st s) :=
  DevOnly.trans (t := strobeFlushTx s) (by simp [DevOnly]) (composeStatusOp_devOnly .txKo st _)

theorem reportRxOverflow_devOnly (s : State) : DevOnly s (reportRxOverflow s) :=
  DevOnly.trans (t := strobeFlushRx s) (by simp [DevOnly]) (composeStatusOp_devOnly .rxKo stCodeOverflow _)

/-- The bracket of the main loop touches only `GIE` (R59). -/
theorem bracket_devOnly {f : State → Out} {s : State} (h : ∀ u, Runs (DevOnly u) (f u)) : Runs (DevOnly s) (bracket f s) :=
  Runs.andThen (h _) fun _ hu => hu

/-- Taking an interrupt touches only `GIE` and the line's flag beside what its handler does (R294, R295). -/
theorem takeInterrupt_devOnly (x : Line) (s : State) : Runs (DevOnly s) (takeInterrupt x strStepOp s) := by
  unfold takeInterrupt; split
  · exact Runs.andThen (strStepOp_devOnly _ (interruptEntry s)) fun _ hu => hu
  · exact DevOnly.refl s

theorem execInit_devOnly (p : Bytes) (s : State) : Runs (DevOnly s) (execInit p s) := by
  unfold execInit; split <;> exact DevOnly.refl s

theorem execTx_devOnly (p : Bytes) (s : State) : Runs (DevOnly s) (execTx p s) := by
  unfold execTx; split
  · exact DevOnly.refl s
  · exact strStepOp_devOnly _ s

theorem execRx_devOnly (p : Bytes) (s : State) : Runs (DevOnly s) (execRx p s) := by
  unfold execRx; split
  · exact DevOnly.refl s
  · exact strStepOp_devOnly _ s

theorem execRxCancel_devOnly (p : Bytes) (s : State) : Runs (DevOnly s) (execRxCancel p s) :=
  Runs.andThen (strStepOp_devOnly .cancel s) fun _ hu => hu

/-- Whatever command block is dispatched, the device half's frame is kept (R104). -/
theorem commandDispatch_devOnly (code : Byte) (p : Bytes) (s : State) : Runs (DevOnly s) (commandDispatch code p s) := by
  unfold commandDispatch; split
  · exact execInit_devOnly p s
  · exact execTx_devOnly p s
  · exact execRx_devOnly p s
  · exact execRxCancel_devOnly p s
  all_goals exact DevOnly.refl s

theorem execDevRecv_devOnly (s : State) : Runs (DevOnly s) (execDevRecv s) := by
  unfold execDevRecv; split
  · exact DevOnly.refl s
  · dsimp only; split
    · exact Runs.andThen (bracket_devOnly (commandDispatch_devOnly _ _)) fun _ hu => hu
    · exact DevOnly.refl s

theorem execDevSend_devOnly (s : State) : Runs (DevOnly s) (execDevSend s) := by
  unfold execDevSend; split
  · exact DevOnly.refl s
  · exact bracket_devOnly fun u => DevOnly.refl u

/-- An operation of the device half keeps its frame, and is never refused (R20, R111, R160). -/
theorem exec_devOnly {i : Instr} (h : hostOp i = false) (s : State) : Runs (DevOnly s) (exec i s) := by
  cases i with
  | init p => exact execInit_devOnly p s
  | tx p => exact execTx_devOnly p s
  | rx p => exact execRx_devOnly p s
  | rxCancel p => exact execRxCancel_devOnly p s
  | blockReserved dir ty p =>
    cases dir with
    | h2d => exact DevOnly.refl s
    | d2h => cases h
  | stOk => exact composeStatusOp_devOnly _ _ s
  | stTxUnderflow | stTxNotEmpty => exact reportTxError_devOnly _ s
  | stRxOverflow => exact reportRxOverflow_devOnly s
  | evPktRise => exact strStepOp_devOnly .pktRise s
  | evPktFall => exact strStepOp_devOnly .pktFall s
  | evThrRise => exact strStepOp_devOnly .thrRise s
  | evThrFall => exact strStepOp_devOnly .thrFall s
  | evCancel => exact strStepOp_devOnly .cancel s
  | evTxStart p => exact strStepOp_devOnly (.txStart p) s
  | evRxStart rxlen => exact strStepOp_devOnly (.rxStart rxlen) s
  | strStep ev => exact strStepOp_devOnly ev s
  | devRecv => exact execDevRecv_devOnly s
  | devDispatch code p => exact commandDispatch_devOnly code p s
  | devSend => exact execDevSend_devOnly s
  | isrPkt => exact takeInterrupt_devOnly .pkt s
  | isrThr => exact takeInterrupt_devOnly .thr s
  | composeStatus ty st => exact composeStatusOp_devOnly ty st s
  | radioStatus | echoTest | stopLines | composeData => exact DevOnly.refl s
  | _ => cases h

/-! The radio: its own steps stay inside the device half's frame (R301, R302). -/

theorem radioTxStep_devOnly (s : State) : DevOnly s (radioTxStep s) := by
  unfold radioTxStep; split
  · simp [DevOnly]
  · split
    · split <;> simp [DevOnly]
    · simp [DevOnly]

theorem radioRxStep_devOnly (s : State) : DevOnly s (radioRxStep s) := by
  unfold radioRxStep; split
  · split <;> simp [DevOnly]
  · simp [DevOnly]

theorem radioStep_devOnly (s : State) : DevOnly s (radioStep s) := by
  unfold radioStep; split
  · exact .refl s
  · exact radioTxStep_devOnly s
  · split
    · exact radioRxStep_devOnly s
    · exact .refl s

theorem airPacket_devOnly (air : Bytes) (rssi crclqi : Byte) (s : State) : DevOnly s (airPacket air rssi crclqi s) := by
  unfold airPacket; split
  · simp [DevOnly]
  · exact .refl s

theorem chooseAirLen_devOnly (a : Option Nat) (s : State) : DevOnly s (chooseAirLen a s) := by
  unfold chooseAirLen; split <;> exact .refl s

/-! ## The clock (R8, R340) -/

/-- The clock is `n` ticks later; the parameters and the configuration registers are as they were (R8, R25). -/
def TicksPass (n : Nat) (s t : State) : Prop := t.now = s.now + n ∧ t.par = s.par ∧ t.host.cfg = s.host.cfg

theorem TicksPass.zero (s : State) : TicksPass 0 s s := ⟨rfl, rfl, rfl⟩

theorem HostOnly.ticksPass {s t : State} (h : HostOnly s t) : TicksPass 0 s t := by
  obtain ⟨hpar, hnow, hcfg, _⟩ := h
  exact ⟨hnow, hpar, hcfg⟩

theorem DevOnly.ticksPass {s t : State} (h : DevOnly s t) : TicksPass 0 s t := by
  obtain ⟨hpar, hnow, hhost, _⟩ := h
  exact ⟨hnow, hpar, by rw [hhost]⟩

/-- No instruction moves the clock, and none is refused. -/
theorem exec_ticksPass (i : Instr) (s : State) : Runs (TicksPass 0 s) (exec i s) := by
  cases h : hostOp i with
  | true => exact (exec_hostOnly h s).mono fun _ => HostOnly.ticksPass
  | false => exact (exec_devOnly h s).mono fun _ => DevOnly.ticksPass

/-- Nor does a call whose operands may be out of range: such a call answers (R289). -/
theorem execChecked_ticksPass (i : Instr) (s : State) : Runs (TicksPass 0 s) (execChecked i s) := by
  unfold execChecked; split
  · exact exec_ticksPass i s
  · unfold refuseCall; split <;> exact TicksPass.zero s

/-- The ticks a task of the host lets pass: only the two sleeps let any (R8, R101). -/
def taskTicks (p : Params) (h : HostHalf) : Task → Nat
  | .sleep n => n
  | .pollSleep => min p.pollSleep h.trh.budget
  | _ => 0

theorem runTask_ticksPass (k : Task) (s : State) : Runs (TicksPass (taskTicks s.par s.host k) s) (runTask k s) := by
  cases k with
  | call | awaitInit | awaitTx | awaitRx | awaitCancel | awaitReply => exact TicksPass.zero s
  | poll => exact (pollOp_hostOnly s).mono fun _ => HostOnly.ticksPass
  | pollSleep | sleep => exact ⟨rfl, rfl, rfl⟩
  | initAttempt => exact (sendCommandOp_hostOnly _ _ s).ticksPass
  | exchange c p => exact (exchangeOp_hostOnly c p s).ticksPass
  | packetBlock p b delay => exact (packetBlockOp_hostOnly p b delay s).ticksPass
  | packetSent p b delay => exact (packetSentOp_hostOnly p b delay s).ticksPass
  | blockReceived b tInter => exact (blockReceivedOp_hostOnly b tInter s).ticksPass
  | step1Done => exact (step1DoneOp_hostOnly s).ticksPass
  | flushTProcess => exact (flushTProcessOp_hostOnly s).ticksPass
  | flushTSent => exact (flushTSentOp_hostOnly s).ticksPass
  | flushTEnd => exact (flushTEndOp_hostOnly s).ticksPass
  | loopTail => exact (loopTailOp_hostOnly s).ticksPass

/-- The ticks a turn lets pass: those of `CLOCK`, and those of the task at the head of the host's control list. -/
def turnTicks (s : State) : Turn → Nat
  | .tick n => n
  | .host => (s.host.ctl.head?.map (taskTicks s.par s.host)).getD 0
  | _ => 0

theorem turnTicks_host_of_cons {s : State} {task : Task} {k : List Task} (h : s.host.ctl = task :: k) :
    turnTicks s .host = taskTicks s.par s.host task := by simp [turnTicks, h]

theorem hostStep_ticksPass (s : State) : Runs (TicksPass (turnTicks s .host) s) (hostStep s) := by
  unfold hostStep; split
  next h => simp only [turnTicks, h]; exact TicksPass.zero s
  next i k h => rw [turnTicks_host_of_cons h]; exact execChecked_ticksPass i (setCtl k s)
  next task k _ h => rw [turnTicks_host_of_cons h]; exact runTask_ticksPass task (setCtl k s)

/-- Every turn is run, none is refused, and the clock moves by the turn's ticks (R8, R340). -/
theorem runTurn_ticksPass (τ : Turn) (s : State) : Runs (TicksPass (turnTicks s τ) s) (runTurn τ s) := by
  cases τ with
  | host => exact hostStep_ticksPass s
  | devRecv => exact exec_ticksPass .devRecv s
  | devSend => exact exec_ticksPass .devSend s
  | isrPkt | isrThr =>
    unfold runTurn; dsimp only; split
    · exact exec_ticksPass _ s
    · exact TicksPass.zero s
  | radio => exact (radioStep_devOnly s).ticksPass
  | air air rssi crclqi => exact (airPacket_devOnly air rssi crclqi s).ticksPass
  | airLen a => exact (chooseAirLen_devOnly a s).ticksPass
  | direct i => exact execChecked_ticksPass i s
  | exchange c p =>
    unfold runTurn askExchange; dsimp only [Runs]; split <;> exact TicksPass.zero s
  | linkH2D | linkD2H | termPut | termTake | tick | devPowerUp | hostStart => exact ⟨rfl, rfl, rfl⟩

/-! ## A step and its turn -/

theorem step_of_config {s : State} (h : configOk s = true) : step s = agentStep s := by simp [step, h, stepIf]

theorem step_of_bad_config {s : State} (h : configOk s = false) : step s = .refused .badConfig := by simp [step, h, stepIf]

theorem agentStep_of_turn {s u : State} {τ : Turn} (h : nextTurn s = (some τ, u)) : agentStep s = runTurn τ u := by
  simp [agentStep, h]

/-- The turn is taken off the agenda, and nothing else changes. -/
theorem nextTurn_rest {s u : State} {τ : Option Turn} (h : nextTurn s = (τ, u)) : u = { s with agenda := u.agenda } := by
  unfold nextTurn at h
  split at h <;> obtain ⟨_, rfl⟩ := h <;> rfl

/-- The step of an agent is never refused. -/
theorem agentStep_ne_refused (s : State) (r : Refusal) : agentStep s ≠ .refused r := by
  unfold agentStep; split
  · exact (runTurn_ticksPass _ _).ne_refused r
  · simp

/-- A step is refused for the configuration alone (R12). -/
theorem step_refused_iff (s : State) (r : Refusal) : step s = .refused r ↔ r = .badConfig ∧ configOk s = false := by
  cases h : configOk s with
  | true => simp [step_of_config h, agentStep_ne_refused s r]
  | false => simp [step_of_bad_config h, eq_comm]

/-- A step lets the ticks of its turn pass, and no others (R340). -/
theorem step_ticksPass {s t u : State} {τ : Turn} (h : nextTurn s = (some τ, u)) (hstep : step s = .next t) :
    TicksPass (turnTicks s τ) s t := by
  have hu := nextTurn_rest h
  cases hc : configOk s with
  | true =>
    rw [step_of_config hc, agentStep_of_turn h] at hstep
    have hticks := (runTurn_ticksPass τ u).of_next hstep
    rw [hu] at hticks
    exact hticks
  | false => rw [step_of_bad_config hc] at hstep; cases hstep

/-- The host's turn lets ticks pass only when a sleep is next (R8, R101). -/
theorem turnTicks_host_ne_zero {s : State} (h : turnTicks s .host ≠ 0) :
    ∃ k, s.host.ctl = .sleep (turnTicks s .host) :: k ∨
      s.host.ctl = .pollSleep :: k ∧ turnTicks s .host = min s.par.pollSleep s.host.trh.budget := by
  cases hctl : s.host.ctl with
  | nil => simp [turnTicks, hctl] at h
  | cons task k =>
    rw [turnTicks_host_of_cons hctl] at h ⊢
    cases task with
    | sleep n => exact ⟨k, .inl rfl⟩
    | pollSleep => exact ⟨k, .inr ⟨rfl, rfl⟩⟩
    | _ => exact absurd rfl h

/-- A turn lets ticks pass only when it is `CLOCK`'s or the host's (R340). -/
theorem turnTicks_ne_zero {s : State} {τ : Turn} (h : turnTicks s τ ≠ 0) : τ = .tick (turnTicks s τ) ∨ τ = .host := by
  cases τ with
  | tick n => exact .inl rfl
  | host => exact .inr rfl
  | _ => exact absurd rfl h

/-! ## The configuration (R5, R12, R137) -/

/-- The ranges of R5, the constraints of R12 and the bounds of `B` (R137), as the rules write them. -/
def ConfigInRange (p : Params) (b : Nat) : Prop :=
  1 ≤ p.pollSleep ∧ 2 ≤ p.fifoSize ∧ 1 ≤ p.txThr ∧ p.txThr ≤ p.fifoSize - 1 ∧ 1 ≤ p.txChunk ∧
    p.txChunk ≤ p.fifoSize - p.txThr + 1 ∧ 1 ≤ p.rxThr ∧ p.rxThr ≤ p.fifoSize ∧ 1 ≤ p.rxChunk ∧ p.rxChunk ≤ p.rxThr ∧
    p.pktBit ≠ p.thrBit ∧ 1 ≤ p.parmsLen ∧ p.parmsLen ≤ 255 ∧ p.statusLen ≤ 255 ∧ 1 ≤ p.kissUnit ∧ 1 ≤ p.rbufCap ∧
    1 ≤ p.tbufCap ∧ 3 ≤ b ∧ b ≤ 253

/-- The model's tests, two of them written as sums, are the rules' (R12). -/
theorem configOk_iff (s : State) : configOk s = true ↔ ConfigInRange s.par s.host.cfg.b := by
  simp only [configOk, Params.ok, Params.checks, blockSizeOk, ConfigInRange, List.all_cons, List.all_nil, id_eq,
    Bool.and_eq_true, decide_eq_true_eq, Bool.and_true]
  omega

/-! ## Answers that are refusals (R289) -/

/-- The type byte of R71 gives its block type back. -/
theorem blockTypeOf_typeCode (ty : BlockType) : blockTypeOf (typeCode ty) = some ty := by cases ty <;> rfl

theorem typeCode_injective {x y : BlockType} (h : typeCode x = typeCode y) : x = y := by
  have hxy : some x = some y := by rw [← blockTypeOf_typeCode x, h, blockTypeOf_typeCode]
  exact Option.some.inj hxy

/-- A harness's call of an instruction whose operands are out of range is the refused call (log entry 14). -/
theorem step_direct_not_wf {i : Instr} {s : State} {rest : List Turn} (hc : configOk s = true)
    (ha : s.agenda = .direct i :: rest) (hwf : i.wf = false) : step s = refuseCall i { s with agenda := rest } := by
  rw [step_of_config hc, agentStep_of_turn (τ := .direct i) (u := { s with agenda := rest }) (by simp [nextTurn, ha])]
  simp [runTurn, execChecked, hwf]

/-- `SEND_BLOCK` of a chunk that makes no block (R100, R137). -/
theorem execSendBlock_of_not_fits (cd : Byte) {chunk : Bytes} (h : 254 < chunk.length) (s : State) :
    execSendBlock cd chunk s = .next (setRes (.fail .refused []) s) := if_neg (by omega)

/-- `RECEIVE_BLOCK` with `B` out of its bounds (R137). -/
theorem execReceiveBlock_of_bad_size {b : Byte} (h : b.toNat < 3 ∨ 253 < b.toNat) (t : Nat) (skip : Bool) (s : State) :
    execReceiveBlock b t skip s = .next (setRes (.fail .refused []) s) := by
  have hb : ¬blockSizeOk b.toNat = true := by simp [blockSizeOk]; omega
  exact if_neg hb

end Sys2Proof.Machine
end

section
/-! The scope of `00_scope.md`: what a step refuses (R5, R12, R137), and what moves the clock and the channels' far ends (R7, R8, R9). -/

namespace Sys2Proof.Machine

/-- Settles O52: a step is refused for the configuration alone, because every turn is run (`runTurn_ticksPass`); the other refusals are
answers. -/
theorem onlyBadConfigurationsAreRefused : Obligations.OnlyBadConfigurationsAreRefused := by
  unfold Obligations.OnlyBadConfigurationsAreRefused
  refine ⟨fun s r => ?refused, fun x y => typeCode_injective, fun i s rest hc ha hwf => ⟨fun hop => ?host, fun hop => ?device⟩,
    fun cd chunk s h => execSendBlock_of_not_fits cd h s, fun b t skip s h => execReceiveBlock_of_bad_size h t skip s⟩
  case refused =>
    rw [step_refused_iff, ← Bool.not_eq_true, configOk_iff]
    exact Iff.rfl
  case host => rw [step_direct_not_wf hc ha hwf]; exact refuseCall_host hop _
  case device => rw [step_direct_not_wf hc ha hwf]; exact refuseCall_dev hop _

/-- Settles O53: the turns of the environment by computation; the rest because a step lets exactly its turn's ticks pass
(`step_ticksPass`). -/
theorem sleepAndEnvironmentTurns : Obligations.SleepAndEnvironmentTurns := by
  unfold Obligations.SleepAndEnvironmentTurns
  refine ⟨fun s n k b a => ⟨rfl, rfl, rfl, rfl, rfl, rfl, rfl⟩, fun s t u τ hturn hstep hmoved => ?_⟩
  obtain ⟨hnow, _, _⟩ := step_ticksPass hturn hstep
  have hticks : t.now - s.now = turnTicks s τ := by omega
  have hne : turnTicks s τ ≠ 0 := by omega
  rw [hticks]
  rcases turnTicks_ne_zero hne with htick | rfl
  · exact .inl htick
  · exact .inr ⟨rfl, turnTicks_host_ne_zero hne⟩

end Sys2Proof.Machine
end

section
/-! SUPPORT. The host half's share of the invariant: what every operation, task and answer of the host keeps of its reader, its
scheduler and its pending work. -/

namespace Sys2Proof.Machine

/-! ## The three parts (R26, R62, R236, R20)

`HostInv` speaks of projections only, so it is the same proposition before and after an update of another field. -/

/-- The reader holds at most one block (R26, R62). -/
def TrhOk (t : Trh) : Prop := if t.expv = true then t.acc.length ≤ t.exp.toNat + 2 else t.acc.length ≤ 1

/-- The scheduler's buffers keep within their capacities, and `TRI` and the triggers imply bytes (R62, R236). -/
def SchOk (p : Params) (c : Sch) : Prop :=
  (c.rbuf.length ≤ p.rbufCap ∧ c.tbuf.length ≤ p.tbufCap) ∧
    (c.tri = .txActive → c.tbuf ≠ []) ∧ (c.txtrig = true → c.tbuf ≠ []) ∧
    (c.tri = .rxActive → c.rbuf ≠ []) ∧ (c.rxtrig = true → c.rbuf ≠ [])

/-- The host half's share of `Inv`. -/
def HostInv (s : State) : Prop :=
  TrhOk s.host.trh ∧ SchOk s.par s.host.sch ∧ s.host.ctl.all Task.ok = true

/-- Work that may stand on the control list may be put before it. -/
theorem HostInv.after_pushTasks {s : State} {ts : List Task} (h : HostInv s) (hts : ts.all Task.ok = true) :
    HostInv (pushTasks ts s) := by
  obtain ⟨htrh, hsch, hctl⟩ := h
  exact ⟨htrh, hsch, by simp [hts, hctl]⟩

/-- The task at hand is taken off the control list. -/
theorem HostInv.setCtl_tail {s : State} {task : Task} {k : List Task} (h : HostInv s) (e : s.host.ctl = task :: k) :
    HostInv (setCtl k s) := by
  obtain ⟨htrh, hsch, hctl⟩ := h
  rw [e, List.all_cons, Bool.and_eq_true] at hctl
  exact ⟨htrh, hsch, hctl.2⟩

/-- A step taken only under a condition. -/
theorem HostInv.ite {s t : State} (h : HostInv s) (k : HostInv t) (c : Bool) : HostInv (if c then t else s) := by
  cases c
  · exact h
  · exact k

/-- What changes neither the parameters nor the host half keeps the host's share. -/
theorem HostInv.of_devOnly {s t : State} (h : HostInv s) (k : DevOnly s t) : HostInv t := by
  obtain ⟨hpar, _, hhost, _⟩ := k
  rw [HostInv, hpar, hhost]; exact h

/-! ## Answers (R101, R113) -/

theorem sendCommandOp_hostInv {s : State} (h : HostInv s) (c : Cmd) (p : Bytes) : HostInv (sendCommandOp c p s) := by
  unfold sendCommandOp; split <;> exact h

theorem initFailed_hostInv {s : State} (h : HostInv s) (n : Nat) : HostInv (initFailed n s) := by
  unfold initFailed; dsimp only; split
  · exact HostInv.after_pushTasks (s := logEvent .radioInitAttempt s) h rfl
  · exact h

theorem endExchange_hostInv {s : State} (h : HostInv s) (r : Result) : HostInv (endExchange r s) := by
  unfold endExchange logFailure; split <;> exact h

theorem answerInit_hostInv {s : State} (h : HostInv s) (n : Nat) (ty : Byte) : HostInv (answerInit n ty s) := by
  unfold answerInit; split
  · exact h
  · exact initFailed_hostInv h n

theorem answerCancel_hostInv {s : State} (h : HostInv s) (ty : Byte) : HostInv (answerCancel ty s) := by
  unfold answerCancel; split
  · exact h
  · exact HostInv.after_pushTasks (s := logEvent (.cancelledRx ty) s) h rfl

theorem answerReply_hostInv {s : State} (h : HostInv s) (c : Cmd) (ty : Byte) (p : Bytes) : HostInv (answerReply c ty p s) := by
  unfold answerReply; split
  · exact h
  · exact endExchange_hostInv h _

/-- Whatever waits for a block keeps the host's share when it gets one. -/
theorem hostAnswer_hostInv {s : State} (h : HostInv s) (ty : Byte) (p : Bytes) : HostInv (hostAnswer ty p s) := by
  unfold hostAnswer; split
  next e => exact answerInit_hostInv (h.setCtl_tail e) _ ty
  next e => exact endExchange_hostInv (h.setCtl_tail e) _
  next e => exact endExchange_hostInv (h.setCtl_tail e) _
  next e => exact answerCancel_hostInv (h.setCtl_tail e) ty
  next e => exact answerReply_hostInv (h.setCtl_tail e) _ ty p
  next => exact h

/-- Whatever waits for a block keeps the host's share when none comes. -/
theorem hostTimeout_hostInv {s : State} (h : HostInv s) : HostInv (hostTimeout s) := by
  unfold hostTimeout; split
  next e => exact initFailed_hostInv (h.setCtl_tail e) _
  next e => exact h.setCtl_tail e
  next e => exact h.setCtl_tail e
  next e => exact h.setCtl_tail e
  next e => exact h.setCtl_tail e
  next => exact h

/-! ## The reader (R101) -/

/-- A byte goes to an incomplete block only, so the reader never holds more than the block. -/
theorem trhPush_ok {t : Trh} (h : TrhOk t) (hc : t.complete = false) (b : Byte) : TrhOk (trhPush t b) := by
  unfold TrhOk at h ⊢
  unfold Trh.complete at hc
  cases hx : t.expv with
  | true =>
    simp only [hx, if_true, Bool.true_and, decide_eq_false_iff_not] at h hc
    simp [trhPush, hx]; omega
  | false =>
    simp only [hx, Bool.false_eq_true, if_false] at h
    by_cases h2 : 2 ≤ t.acc.length + 1
    · simp [trhPush, hx, h2]; exact Nat.le_add_left_of_le h
    · simp [trhPush, hx, h2]; exact List.eq_nil_of_length_eq_zero (by omega)

theorem pollBytes_ok {t : Trh} (h : TrhOk t) (bs : Bytes) : TrhOk (pollBytes t bs).1 := by
  induction bs generalizing t with
  | nil => exact h
  | cons b bs ih =>
    unfold pollBytes; split
    · exact h
    next hc => exact ih (trhPush_ok h (Bool.eq_false_iff.mpr hc) b)

/-- An emptied reader holds at most one block. -/
theorem trhOk_of_empty {t : Trh} (h : t.acc = []) : TrhOk t := by
  unfold TrhOk; split <;> simp [h]

theorem pollOp_hostInv {s : State} (h : HostInv s) : Runs HostInv (pollOp s) := by
  obtain ⟨htrh, hsch, hctl⟩ := h
  have hpolled : HostInv { s with
      host.trh := (pollBytes s.host.trh s.lD2H.avail).1
      lD2H.avail := (pollBytes s.host.trh s.lD2H.avail).2 } := ⟨pollBytes_ok htrh _, hsch, hctl⟩
  unfold pollOp; dsimp only; split
  · rw [replyDispatch_eq]; exact hostAnswer_hostInv hpolled _ _
  · split
    · exact hostTimeout_hostInv (s := { s with
        host.trh := { (pollBytes s.host.trh s.lD2H.avail).1 with acc := [] }
        lD2H.avail := (pollBytes s.host.trh s.lD2H.avail).2 }) ⟨trhOk_of_empty rfl, hsch, hctl⟩
    · exact hpolled.after_pushTasks rfl

theorem execReadBlock_hostInv {s : State} (h : HostInv s) (timeout : Nat) : Runs HostInv (execReadBlock timeout s) := by
  obtain ⟨_, hsch, hctl⟩ := h
  exact pollOp_hostInv ⟨trhOk_of_empty rfl, hsch, hctl⟩

theorem exchangeOp_hostInv {s : State} (h : HostInv s) (c : Cmd) (p : Bytes) : HostInv (exchangeOp c p s) := by
  unfold exchangeOp; split
  · exact HostInv.after_pushTasks (sendCommandOp_hostInv h c p) rfl
  · exact sendCommandOp_hostInv h c p

theorem askExchange_hostInv {s : State} (h : HostInv s) (c : Cmd) (p : Bytes) : HostInv (askExchange c p s) := by
  unfold askExchange; split
  · exact h.after_pushTasks rfl
  · exact h

/-! ## Segmentation (R131 to R134) -/

theorem sendBlockOp_hostInv {s : State} (h : HostInv s) (cd : Byte) (chunk : Bytes) : HostInv (sendBlockOp cd chunk s) :=
  HostInv.after_pushTasks (sendCommandOp_hostInv h .tx (cd :: chunk)) rfl

theorem packetBlockOp_hostInv {s : State} (h : HostInv s) (p : Bytes) (b delay : Nat) : HostInv (packetBlockOp p b delay s) :=
  sendBlockOp_hostInv (h.after_pushTasks rfl) _ _

theorem packetSentOp_hostInv {s : State} (h : HostInv s) (p : Bytes) (b delay : Nat) : HostInv (packetSentOp p b delay s) := by
  unfold packetSentOp; split
  · dsimp only; split
    · exact HostInv.after_pushTasks (s := { s with host.seg.idx := s.host.seg.idx + 1 }) h (by split <;> rfl)
    · exact h
  · exact h

theorem receiveBlockOp_hostInv {s : State} (h : HostInv s) (b : Byte) (t : Nat) (skipSend : Bool) :
    HostInv (receiveBlockOp b t skipSend s) := by
  unfold receiveBlockOp; split
  · exact h.after_pushTasks rfl
  · exact HostInv.after_pushTasks (sendCommandOp_hostInv h .rx [b]) rfl

theorem blockReceivedOp_hostInv {s : State} (h : HostInv s) (b tInter : Nat) : HostInv (blockReceivedOp b tInter s) := by
  have hpush (u : State) (hu : HostInv u) : HostInv (nextReceive b tInter tInter false u) := hu.after_pushTasks rfl
  unfold blockReceivedOp; split
  · dsimp only; repeat' split
    · exact hpush _ h
    all_goals exact h
  · exact h

theorem execSendPacket_hostInv {s : State} (h : HostInv s) (p : Bytes) (b delay : Nat) :
    Runs HostInv (execSendPacket p b delay s) := by
  unfold execSendPacket; dsimp only; split
  · exact h
  · split
    · exact h
    · exact packetBlockOp_hostInv (s := { s with host.seg.nblk := blockCount p.length b, host.seg.idx := 0 }) h p b delay

theorem execSendBlock_hostInv {s : State} (h : HostInv s) (cd : Byte) (chunk : Bytes) :
    Runs HostInv (execSendBlock cd chunk s) := by
  unfold execSendBlock; split
  · exact sendBlockOp_hostInv h cd chunk
  · exact h

theorem execReceivePacket_hostInv {s : State} (h : HostInv s) (b tFirst tInter : Nat) (armed : Bool) :
    Runs HostInv (execReceivePacket b tFirst tInter armed s) := by
  unfold execReceivePacket; split
  · exact h
  · exact HostInv.after_pushTasks (s := { s with host.seg.asm := [], host.seg.nread := 0 }) h rfl

theorem execReceiveBlock_hostInv {s : State} (h : HostInv s) (b : Byte) (t : Nat) (skip : Bool) :
    Runs HostInv (execReceiveBlock b t skip s) := by
  unfold execReceiveBlock; split
  · exact receiveBlockOp_hostInv h b t skip
  · exact h

/-! ## The framer (R191, R202): of the scheduler it writes `HALT` alone -/

theorem kissBytes_hostInv {s : State} (h : HostInv s) (bs : Bytes) : HostInv (kissBytes bs s) := by
  induction bs generalizing s with
  | nil => exact h
  | cons b bs ih => exact ih (s := kissByte b s) (by rw [kissByte_frame]; exact h)

theorem kissLoop_hostInv {s : State} (h : HostInv s) (fuel : Nat) (buf : Bytes) : HostInv (kissLoop fuel buf s) := by
  induction fuel generalizing s buf with
  | zero => exact h
  | succ fuel ih =>
    unfold kissLoop; split
    · exact h
    next frame rest _ => exact ih (s := kissFrame frame s) (by rw [kissFrame_frame]; exact h) rest

theorem kissRun_hostInv {s : State} (h : HostInv s) (buf : Bytes) : HostInv (kissRun buf s) := by
  refine kissLoop_hostInv ?_ _ _
  unfold resync; split <;> exact h

/-! ## The scheduler (R220 to R231) -/

/-- The flushed side is cleared with both triggers and the tri-state, so nothing is implied any more (R227, R236). -/
theorem clearStateOp_hostInv {s : State} (h : HostInv s) (side : Side) : HostInv (clearStateOp side s) := by
  obtain ⟨htrh, ⟨⟨hr, ht⟩, _⟩, hctl⟩ := h
  cases side with
  | r => exact ⟨htrh, ⟨⟨Nat.zero_le _, ht⟩, by simp⟩, hctl⟩
  | t => exact ⟨htrh, ⟨⟨hr, Nat.zero_le _⟩, by simp⟩, hctl⟩

theorem flushROp_hostInv {s : State} (h : HostInv s) : HostInv (flushROp s) := by
  have hclear : HostInv (clearStateOp .r { s with termOut := s.termOut ++ s.host.sch.rbuf }) := clearStateOp_hostInv h .r
  unfold flushROp; dsimp only; split
  · exact hclear.after_pushTasks rfl
  · exact hclear

theorem flushTEndOp_hostInv {s : State} (h : HostInv s) : HostInv (flushTEndOp s) := by
  unfold flushTEndOp; dsimp only; split
  · exact (clearStateOp_hostInv h .t).after_pushTasks rfl
  · exact clearStateOp_hostInv h .t

theorem flushTProcessOp_hostInv {s : State} (h : HostInv s) : HostInv (flushTProcessOp s) := by
  unfold flushTProcessOp; dsimp only; split
  · exact flushTEndOp_hostInv (kissRun_hostInv h _)
  · exact (kissRun_hostInv h _).after_pushTasks rfl

theorem flushTSentOp_hostInv {s : State} (h : HostInv s) : HostInv (flushTSentOp s) := by
  unfold flushTSentOp; split
  · exact h.after_pushTasks rfl
  · exact h.after_pushTasks rfl
  · exact flushTEndOp_hostInv h

theorem flushTOp_hostInv {s : State} (h : HostInv s) : HostInv (flushTOp s) := by
  unfold flushTOp; split
  · exact h.after_pushTasks rfl
  · exact flushTProcessOp_hostInv h

theorem loopTailOp_hostInv {s : State} (h : HostInv s) : HostInv (loopTailOp s) := by
  unfold loopTailOp; split
  · exact h
  · exact h.after_pushTasks rfl

/-- A received packet goes to the radio buffer only if it fits and is not empty (R221). -/
theorem step1DoneOp_hostInv {s : State} (h : HostInv s) : HostInv (step1DoneOp s) := by
  have harmed : HostInv (setArmed false s) := h
  unfold step1DoneOp; dsimp only; split
  next p _ =>
    split
    · exact harmed.after_pushTasks rfl
    · split
      next hne hfit =>
        obtain ⟨htrh, ⟨⟨_, ht⟩, _, htx, _, _⟩, hctl⟩ := h
        rw [appendBuffer_rbuf]
        have hp : s.host.sch.rbuf ++ p ≠ [] := by simp_all
        exact ⟨htrh, ⟨⟨by simpa using hfit, ht⟩, by simp, htx, fun _ => hp, fun _ => hp⟩, hctl⟩
      · exact HostInv.after_pushTasks (s := logEvent (.bufOverflow p.length) (setArmed false s)) h rfl
  · exact harmed.after_pushTasks rfl
  · exact harmed.after_pushTasks rfl

theorem execStep1_hostInv {s : State} (h : HostInv s) : Runs HostInv (execStep1 s) := by
  unfold execStep1; dsimp only; split
  · exact HostInv.after_pushTasks (s := atStep 1 s) h rfl
  · exact h

/-- `STEP2` takes the bytes that fit, and acts only when there is one (R222). -/
theorem execStep2_hostInv {s : State} (h : HostInv s) : Runs HostInv (execStep2 s) := by
  unfold execStep2; dsimp only; split
  next hk =>
    obtain ⟨htrh, ⟨⟨hr, ht⟩, _, _, _, hrx⟩, hctl⟩ := h
    have hlen : (s.termIn.take (step2Take (atStep 2 s))).length = step2Take (atStep 2 s) := by
      simp [step2Take, atStep]
    have hfit : step2Take (atStep 2 s) ≤ s.par.tbufCap - s.host.sch.tbuf.length := Nat.min_le_right _ _
    rw [appendBuffer_tbuf]
    have hp : s.host.sch.tbuf ++ s.termIn.take (step2Take (atStep 2 s)) ≠ [] := by
      intro e; have := congrArg List.length e; rw [List.length_append, hlen] at this; simp at this; omega
    refine ⟨htrh, ⟨⟨hr, ?_⟩, fun _ => hp, fun _ => hp, by simp, hrx⟩, hctl⟩
    show (s.host.sch.tbuf ++ s.termIn.take (step2Take (atStep 2 s))).length ≤ s.par.tbufCap
    rw [List.length_append, hlen]; omega
  · exact h

theorem execStep3_hostInv {s : State} (h : HostInv s) : Runs HostInv (execStep3 s) := by
  have hs : HostInv (atStep 3 s) := h
  exact hs.ite (flushROp_hostInv hs) _

theorem execStep4_hostInv {s : State} (h : HostInv s) : Runs HostInv (execStep4 s) := by
  have hs : HostInv (atStep 4 s) := h
  exact hs.ite (flushTOp_hostInv hs) _

theorem execStep5_hostInv {s : State} (h : HostInv s) : Runs HostInv (execStep5 s) := by
  have hs : HostInv (atStep 5 s) := h
  unfold execStep5; dsimp only; split
  · exact (hs.ite (flushROp_hostInv hs) _).ite (flushTOp_hostInv (hs.ite (flushROp_hostInv hs) _)) _
  · exact h

/-- After a start of the loop nothing is buffered (R237, R39). -/
theorem schReset_ok (p : Params) (now : Nat) : SchOk p (Sch.reset now) := by simp [SchOk, Sch.reset]

theorem execSchedStart_hostInv {s : State} (h : HostInv s) : Runs HostInv (execSchedStart s) := by
  obtain ⟨htrh, _, hctl⟩ := h
  exact HostInv.after_pushTasks (s := { s with host.sch := Sch.reset s.now }) ⟨htrh, schReset_ok _ _, hctl⟩ rfl

/-! ## Every operation and every task of the host -/

theorem exec_hostInv {i : Instr} (hop : hostOp i = true) {s : State} (h : HostInv s) : Runs HostInv (exec i s) := by
  cases i with
  | blockReserved dir ty p =>
    cases dir with
    | h2d => cases hop
    | d2h => exact hostAnswer_hostInv h ty p
  | initEcho | txAck | rxAck | rxCancelEcho | radioStatusReply | echoTestReply | txKo | rxKo => exact hostAnswer_hostInv h _ _
  | fesc => exact kissBytes_hostInv h [FESC]
  | tfend => exact kissBytes_hostInv h [TFEND]
  | tfesc => exact kissBytes_hostInv h [TFESC]
  | kissTxdelay _ v | kissPersist _ v | kissSlottime _ v | kissTxtail _ v => cases v <;> exact h
  | unescape frame => exact kissBytes_hostInv (s := kissStart s) h frame
  | kissProcess buf => exact kissRun_hostInv h buf
  | sendCommand c p => exact sendCommandOp_hostInv h c p
  | readBlock timeout => exact execReadBlock_hostInv h timeout
  | hostInit => exact HostInv.after_pushTasks (sendCommandOp_hostInv h .init _) rfl
  | sendPacket p b delay => exact execSendPacket_hostInv h p b delay
  | sendBlock cd chunk => exact execSendBlock_hostInv h cd chunk
  | receivePacket b tFirst tInter armed => exact execReceivePacket_hostInv h b tFirst tInter armed
  | receiveBlock b t skip => exact execReceiveBlock_hostInv h b t skip
  | schedStart => exact execSchedStart_hostInv h
  | schedLoop => exact h.after_pushTasks rfl
  | step1 => exact execStep1_hostInv h
  | step2 => exact execStep2_hostInv h
  | step3 => exact execStep3_hostInv h
  | step4 => exact execStep4_hostInv h
  | step5 => exact execStep5_hostInv h
  | clearState side => exact clearStateOp_hostInv h side
  | armRx => exact sendCommandOp_hostInv h .rx _
  | cancelRx => exact HostInv.after_pushTasks (sendCommandOp_hostInv h .rxCancel []) rfl
  | flushR => exact flushROp_hostInv h
  | flushT => exact flushTOp_hostInv h
  | fend | kissData | kissAbort | kissUnlisted | tokenize | escape | interpretCommand | elapsed => exact h
  | _ => cases hop

theorem runTask_hostInv (task : Task) {s : State} (h : HostInv s) : Runs HostInv (runTask task s) := by
  cases task with
  | call | awaitInit | awaitTx | awaitRx | awaitCancel | awaitReply | pollSleep | sleep => exact h
  | poll => exact pollOp_hostInv h
  | initAttempt => exact HostInv.after_pushTasks (sendCommandOp_hostInv h .init _) rfl
  | exchange c p => exact exchangeOp_hostInv h c p
  | packetBlock p b delay => exact packetBlockOp_hostInv h p b delay
  | packetSent p b delay => exact packetSentOp_hostInv h p b delay
  | blockReceived b tInter => exact blockReceivedOp_hostInv h b tInter
  | step1Done => exact step1DoneOp_hostInv h
  | flushTProcess => exact flushTProcessOp_hostInv h
  | flushTSent => exact flushTSentOp_hostInv h
  | flushTEnd => exact flushTEndOp_hostInv h
  | loopTail => exact loopTailOp_hostInv h

end Sys2Proof.Machine
end

section
/-! SUPPORT. The device half's share of the invariant: what every line update, streamer event, command and radio step keeps of the
streamer, the FIFOs, the lines and the composed blocks. -/

namespace Sys2Proof.Machine

/-! ## The parts (R28, R32, R33, R37, R103, R151, R166, R292, R301) -/

/-- The constraints of R5 and R12 that the device half's invariant rests on. -/
def LineParams (p : Params) : Prop := p.pktBit ≠ p.thrBit ∧ 1 ≤ p.txThr ∧ 1 ≤ p.rxThr ∧ p.statusLen ≤ 255

theorem lineParams_of_config {s : State} (h : configOk s = true) : LineParams s.par := by
  obtain ⟨_, _, htx, _, _, _, hrx, _, _, _, hne, _, _, hst, _⟩ := (configOk_iff s).mp h
  exact ⟨hne, htx, hrx, hst⟩

/-- The receiver holds one incomplete block: a byte at most until the size is latched (R103). -/
def TrdOk (t : Trd) : Prop :=
  (t.expv = false → t.acc.length ≤ 1) ∧
    (t.expv = true → 2 ≤ t.acc.length ∧ t.acc.getD 1 0 = t.exp ∧ t.acc.length < t.exp.toNat + 2)

/-- The streamer's buffers and positions are in their bounds (R32, R33). -/
def StrOk (c : Str) : Prop :=
  (c.txlen = c.txbuf.length ∧ c.txlen ≤ 255) ∧ c.txpos ≤ c.txlen ∧ c.rxbuf.length ≤ rxCap c.rxlen

/-- The FIFOs keep within their capacity, and the TX FIFO holds bytes only during a transmission (R37, R151). -/
def FifosOk (s : State) : Prop :=
  (s.radio.txFifo.length ≤ s.par.fifoSize ∧ s.radio.rxFifo.length ≤ s.par.fifoSize) ∧
    (s.dev.str.mode ≠ .txStreaming → s.radio.txFifo = [])

/-- A pending refill finds room, the threshold line has its level, and `IDLE` has both lines disabled (R292, R301, R166). -/
def LinesOk (s : State) : Prop :=
  (s.dev.str.mode = .txStreaming → iesOf .thr s = true → ifgOf .thr s = true → s.radio.txFifo.length < s.par.txThr) ∧
    pinOf .thr s = thrLevel s ∧ (s.dev.str.mode = .idle → ieOf .pkt s = false ∧ ieOf .thr s = false)

/-- The streamer's share of `Inv`: what holds also inside a handler or a bracket, with `GIE` = 0 and the receiver full. -/
def StreamInv (s : State) : Prop :=
  LineParams s.par ∧ (∀ b ∈ s.dev.outq, wholeBlock b) ∧ StrOk s.dev.str ∧ FifosOk s ∧ LinesOk s

/-! ## Updates of the lines and the FIFOs -/

section
variable {s u : State}

theorem StreamInv.rxFifo_le (h : StreamInv s) : s.radio.rxFifo.length ≤ s.par.fifoSize := by
  obtain ⟨_, _, _, ⟨⟨_, hrx⟩, _⟩, _⟩ := h
  exact hrx

/-- Outside a transmission the TX FIFO is empty (R151). -/
theorem StreamInv.txFifo_nil (h : StreamInv s) (hm : s.dev.str.mode ≠ .txStreaming) : s.radio.txFifo = [] := by
  obtain ⟨_, _, _, ⟨_, hempty⟩, _⟩ := h
  exact hempty hm

/-- The packet line is not the threshold line (R12), so its level is no matter to the invariant. -/
theorem StreamInv.setLine_pkt (h : StreamInv s) (level : Bool) : StreamInv (setLine .pkt level s) := by
  obtain ⟨hpar, houtq, hstr, hfifo, hroom, hpin, hidle⟩ := h
  have hne : s.par.thrBit ≠ s.par.pktBit := Ne.symm hpar.1
  have hifg : ifgOf .thr (setLine .pkt level s) = ifgOf .thr s := by simp [setLine_ifgOf, hne]
  have hpin' : pinOf .thr (setLine .pkt level s) = pinOf .thr s := by simp [setLine_pinOf, hne]
  refine ⟨by simpa using hpar, by simpa using houtq, by simpa using hstr, by simpa [FifosOk] using hfifo, ?_, ?_, ?_⟩
  · simpa [hifg] using hroom
  · rw [hpin', hpin]; simp [thrLevel]
  · simpa using hidle

/-- The threshold line follows a change of the FIFOs that puts nothing in the TX FIFO: when its falling edge is the selected one, the
flag is set only by a level below the threshold (R292, R301). -/
theorem StreamInv.after_updateThr (h : StreamInv s) (hpar : u.par = s.par) (hdev : u.dev = s.dev)
    (htx : u.radio.txFifo.length ≤ s.radio.txFifo.length) (hrx : u.radio.rxFifo.length ≤ s.par.fifoSize) :
    StreamInv (updateThr u) := by
  obtain ⟨hp, houtq, hstr, ⟨⟨htxb, _⟩, hempty⟩, hroom, _, hidle⟩ := h
  have hifg (x : Line) : ifgOf x u = ifgOf x s := by simp [ifgOf, hpar, hdev]
  have hies (x : Line) : iesOf x u = iesOf x s := by simp [iesOf, hpar, hdev]
  have hie (x : Line) : ieOf x u = ieOf x s := by simp [ieOf, hpar, hdev]
  refine ⟨by simpa [hpar] using hp, by simpa [hdev] using houtq, by simpa [hdev] using hstr, ⟨?_, ?_⟩, ?_,
    updateThr_pinOf u, by simpa [hdev, hie] using hidle⟩
  · simpa [hpar] using ⟨htx.trans htxb, hrx⟩
  · intro hm
    have := hempty (by simpa [hdev] using hm)
    simpa [this] using htx
  · intro hm hes hfg
    simp only [updateThr_str, hdev] at hm
    simp only [updateThr_iesOf] at hes
    simp only [updateThr_radio, updateThr_par, hpar]
    rw [updateThr_eq, setLine_ifgOf] at hfg
    split at hfg
    next hset =>
      obtain ⟨_, _, hlevel⟩ := hset
      rw [hes] at hlevel
      simp [thrLevel, hpar] at hlevel
      exact hlevel.1
    next => exact htx.trans_lt (hroom hm (by rw [← hies, hes]) (by rw [← hifg, hfg]))

/-- Bytes put in the TX FIFO during a transmission, with the threshold line's flag cleared after it (R153). -/
theorem StreamInv.after_pushTxFifo (h : StreamInv s) (hm : s.dev.str.mode = .txStreaming) {b : Bytes} (hf : fitsTxFifo b s) :
    StreamInv (setIfg .thr false (updateThr (pushTxFifo b s))) := by
  obtain ⟨hp, houtq, hstr, ⟨⟨_, hrx⟩, _⟩, _, _, hidle⟩ := h
  refine ⟨by simpa using hp, by simpa using houtq, by simpa using hstr, ⟨?_, by simp [hm]⟩, by simp, ?_, by simp [hm]⟩
  · simpa [fitsTxFifo] using ⟨hf, hrx⟩
  · exact updateThr_pinOf (pushTxFifo b s)

/-- A flag may be cleared at any time. -/
theorem StreamInv.setIfg_false (h : StreamInv s) (x : Line) : StreamInv (setIfg x false s) := by
  obtain ⟨hp, houtq, hstr, hfifo, hroom, hlines⟩ := h
  refine ⟨hp, houtq, hstr, hfifo, fun hm hes hfg => hroom hm hes ?_, hlines⟩
  rw [ifgOf_setIfg] at hfg
  split at hfg
  · cases hfg
  · exact hfg

/-- A line may be disabled at any time. -/
theorem StreamInv.setIe_false (h : StreamInv s) (x : Line) : StreamInv (setIe x false s) := by
  obtain ⟨hp, houtq, hstr, hfifo, hroom, hpin, hidle⟩ := h
  refine ⟨hp, houtq, hstr, hfifo, hroom, hpin, fun hm => ?_⟩
  obtain ⟨hpkt, hthr⟩ := hidle hm
  simp [hpkt, hthr]

/-- The packet line may select either edge. -/
theorem StreamInv.setIes_pkt (h : StreamInv s) (falling : Bool) : StreamInv (setIes .pkt falling s) := by
  obtain ⟨hp, houtq, hstr, hfifo, hroom, hlines⟩ := h
  have hne : s.par.thrBit ≠ s.par.pktBit := Ne.symm hp.1
  exact ⟨hp, houtq, hstr, hfifo, fun hm hes hfg => hroom hm (by simpa [hne] using hes) hfg, hlines⟩

/-- The end of an operation: both lines disabled, nothing pending, and the TX FIFO empty (R151, R166). -/
theorem StreamInv.toIdle (h : StreamInv s) (hempty : s.radio.txFifo = []) : StreamInv (setMode .idle (stopLinesOp s)) := by
  obtain ⟨hp, houtq, hstr, ⟨hbound, _⟩, _, hpin, _⟩ := h
  rw [stopLinesOp_eq]
  exact ⟨hp, houtq, hstr, ⟨hbound, fun _ => hempty⟩, by simp, hpin, fun _ => by simp [ieOf]⟩

/-- A composed block is whole when its payload fits (R70, R104). -/
theorem StreamInv.after_respond (h : StreamInv s) (ty : BlockType) {p : Bytes} (hlen : p.length ≤ 255) :
    StreamInv (respond ty p s) := by
  obtain ⟨hp, houtq, hrest⟩ := h
  refine ⟨hp, fun b hb => ?_, hrest⟩
  rw [respond_outq, List.mem_append, List.mem_singleton] at hb
  rcases hb with hb | rfl
  · exact houtq b hb
  · exact ⟨_, p, hlen, rfl⟩

/-- A status-shape block has nine bytes (R73). -/
theorem StreamInv.after_composeStatusOp (h : StreamInv s) (ty : BlockType) (st : Byte) : StreamInv (composeStatusOp ty st s) :=
  StreamInv.after_respond (s := countFree (countFree (countFree (countFree s)))) h ty (by simp)

theorem StreamInv.after_strobeFlushTx (h : StreamInv s) : StreamInv (strobeFlushTx s) :=
  h.after_updateThr rfl rfl (Nat.zero_le _) h.rxFifo_le

theorem StreamInv.after_strobeFlushRx (h : StreamInv s) : StreamInv (strobeFlushRx s) :=
  h.after_updateThr rfl rfl le_rfl (Nat.zero_le _)

theorem StreamInv.after_dropRxFifo (h : StreamInv s) (n : Nat) : StreamInv (updateThr (dropRxFifo n s)) := by
  have hrx := h.rxFifo_le
  exact h.after_updateThr rfl rfl le_rfl (by simp; omega)

/-- Bytes that fit `RXCAP` go to the receive buffer (R33, R156). -/
theorem StreamInv.after_appendRxBuf (h : StreamInv s) {b : Bytes} (hfit : b.length ≤ rxRoom s) : StreamInv (appendRxBuf b s) := by
  obtain ⟨hp, houtq, ⟨htxlen, htxpos, hrx⟩, hrest⟩ := h
  refine ⟨hp, houtq, ⟨htxlen, htxpos, ?_⟩, hrest⟩
  unfold rxRoom at hfit
  simp; omega

theorem StreamInv.after_setTxPos (h : StreamInv s) {n : Nat} (hn : n ≤ s.dev.str.txlen) : StreamInv (setTxPos n s) := by
  obtain ⟨hp, houtq, ⟨htxlen, _, hrx⟩, hrest⟩ := h
  exact ⟨hp, houtq, ⟨htxlen, hn, hrx⟩, hrest⟩

end

/-! ## The streamer's transitions (R151 to R159) -/

theorem txSetup_streamInv {s : State} (h : StreamInv s) {p : Bytes} (hp : p.length ≤ 255) : Runs StreamInv (txSetup p s) := by
  by_cases hf : fitsTxFifo (txHead p s) s
  · rw [txSetup_of_fits p s hf]
    obtain ⟨hpar, houtq, ⟨_, _, hrxcap⟩, ⟨⟨_, hrx⟩, _⟩, _⟩ := h
    have hpin := updateThr_pinOf (pushTxFifo (txHead p s) (setTxBuf p (zeroCounters s)))
    refine ⟨by simpa using hpar, by simpa using houtq, by simpa [StrOk] using ⟨hp, hrxcap⟩, ⟨?_, by simp⟩, ?_, ?_, by simp⟩
    · simpa [fitsTxFifo] using ⟨hf, hrx⟩
    · simp [ifgOf]
    · simpa [pinOf, thrLevel] using hpin
  · rw [txSetup_of_not_fits p s hf]; trivial

theorem rxSetup_streamInv {s : State} (h : StreamInv s) (hm : s.dev.str.mode = .idle) (rxlen : Byte) :
    StreamInv (rxSetup rxlen s) := by
  obtain ⟨hpar, houtq, ⟨htxlen, htxpos, _⟩, ⟨hbound, hempty⟩, _, hpin, _⟩ := h
  refine ⟨by simpa using hpar, by simpa using houtq, ⟨by simpa using htxlen, by simpa using htxpos, by simp⟩,
    ⟨by simpa using hbound, fun _ => by simpa using hempty (by simp [hm])⟩, by simp, ?_, by simp⟩
  simpa [pinOf, thrLevel] using hpin

theorem syncSeen_streamInv {s : State} (h : StreamInv s) : StreamInv (syncSeen s) :=
  (StreamInv.setIes_pkt (s := bumpPktRise s) h true).setIfg_false .pkt

theorem refill_streamInv {s : State} (h : StreamInv s) (hm : s.dev.str.mode = .txStreaming) : Runs StreamInv (refill s) := by
  by_cases hf : fitsTxFifo (txNext s) s
  · have hn : s.dev.str.txpos + refillSize s ≤ s.dev.str.txlen := by
      obtain ⟨_, _, ⟨_, hpos, _⟩, _⟩ := h
      unfold refillSize; omega
    have hpush : StreamInv (setIfg .thr false (updateThr (pushTxFifo (txNext s) (bumpThrFall s)))) :=
      StreamInv.after_pushTxFifo (s := bumpThrFall s) h hm hf
    have hpos := hpush.after_setTxPos (n := s.dev.str.txpos + refillSize s) (by simpa using hn)
    rw [refill_of_fits s hf]; dsimp only [Runs]; split
    · exact StreamInv.setIe_false hpos .thr
    · exact hpos
  · rw [refill_of_not_fits s hf]; trivial

/-- A status of no error means that the TX FIFO is empty (R86). -/
theorem txFifo_nil_of_txStatus {s : State} (h : txStatus (radioStatusOf s) = stCodeOk) : s.radio.txFifo = [] := by
  unfold txStatus at h
  split at h
  · cases h
  · split at h
    · cases h
    next hn => simpa [radioStatusOf, txCount] using hn

theorem reportTxError_streamInv {s : State} (h : StreamInv s) (st : Byte) : StreamInv (reportTxError st s) :=
  h.after_strobeFlushTx.after_composeStatusOp .txKo st

theorem reportRxOverflow_streamInv {s : State} (h : StreamInv s) : StreamInv (reportRxOverflow s) :=
  h.after_strobeFlushRx.after_composeStatusOp .rxKo _

theorem txEnd_streamInv {s : State} (h : StreamInv s) : StreamInv (txEnd s) := by
  have hb : StreamInv (bumpPktFall s) := h
  unfold txEnd; dsimp only; split
  next hok => exact (hb.after_composeStatusOp .tx _).toIdle (txFifo_nil_of_txStatus hok)
  next => exact (reportTxError_streamInv hb _).toIdle (congrArg Radio.txFifo (strobeFlushTx_radio (bumpPktFall s)))

theorem drain_streamInv {s : State} (h : StreamInv s) : Runs StreamInv (drain s) := by
  have hdrop := StreamInv.after_dropRxFifo (s := bumpThrRise s) h (min s.par.rxChunk (min (rxCount s) (rxRoom s)))
  rw [drain_next s _ rfl]
  exact (hdrop.after_appendRxBuf (by simp [rxRoom])).setIfg_false .thr

theorem rxEnd_streamInv {s : State} (h : StreamInv s) (hm : s.dev.str.mode = .rxStreaming) : Runs StreamInv (rxEnd s) := by
  have hb : StreamInv (bumpPktFall s) := h
  have hempty : s.radio.txFifo = [] := h.txFifo_nil (by simp [hm])
  cases ho : s.radio.rxOvf with
  | true =>
    rw [rxEnd_of_overflow s ho]
    exact (reportRxOverflow_streamInv hb).toIdle ((congrArg Radio.txFifo (strobeFlushRx_radio (bumpPktFall s))).trans hempty)
  | false =>
    rw [rxEnd_of_no_overflow s _ ho rfl]
    have hdrain : StreamInv (appendRxBuf (s.radio.rxFifo.take (min (rxCount s) (rxRoom s)))
        (updateThr (dropRxFifo (min (rxCount s) (rxRoom s)) (bumpPktFall s)))) :=
      (hb.after_dropRxFifo _).after_appendRxBuf (by simp [rxRoom])
    have hkeep (v : State) (hv : StreamInv v) (he : v.radio.txFifo = []) :
        StreamInv (setMode .idle (stopLinesOp (composeDataOp .rx v.dev.str.rxbuf v))) := by
      have hlen : v.dev.str.rxbuf.length ≤ 255 := by
        obtain ⟨_, _, ⟨_, _, hcap⟩, _⟩ := hv
        exact hcap.trans (min_le_right _ _)
      exact (hv.after_respond .rx hlen).toIdle he
    dsimp only [Runs]; split
    · exact hkeep _ hdrain.after_strobeFlushRx (by simpa using hempty)
    · exact hkeep _ hdrain (by simpa using hempty)

/-- After an abort both FIFOs are empty and both lines low and disabled (R159, R301). -/
theorem cancelStep_streamInv {s : State} (h : StreamInv s) : StreamInv (cancelStep s) := by
  obtain ⟨hpar, houtq, hstr, _⟩ := h
  have ⟨_, htx, hrx, _⟩ := hpar
  refine ⟨by simpa using hpar, by simpa using houtq, by simpa [StrOk] using hstr, ⟨by simp, by simp⟩, by simp, ?_, ?_⟩
  · simp [pinOf, thrLevel]; omega
  · simp [ieOf]

/-- Whatever the input, the streamer keeps its share of the invariant (R150). -/
theorem strStepOp_streamInv {ev : Event} (hwf : ev.wf = true) {s : State} (h : StreamInv s) :
    Runs StreamInv (strStepOp ev s) := by
  unfold strStepOp
  cases ev with
  | txStart p =>
    have hp : p.length ≤ 255 := by simp [Event.wf, txPayload] at hwf; exact hwf.2
    cases s.dev.str.mode with
    | idle => exact txSetup_streamInv h hp
    | txStreaming | rxStreaming => exact h
  | rxStart rxlen =>
    cases hm : s.dev.str.mode with
    | idle => exact rxSetup_streamInv h hm rxlen
    | txStreaming | rxStreaming => exact h
  | pktRise =>
    cases s.dev.str.mode with
    | idle => exact h
    | txStreaming | rxStreaming =>
      dsimp only [Runs]; split
      · exact syncSeen_streamInv h
      · exact h
  | pktFall =>
    cases hm : s.dev.str.mode with
    | idle => exact h
    | txStreaming =>
      dsimp only [Runs]; split
      · exact txEnd_streamInv h
      · exact h
    | rxStreaming =>
      dsimp only; split
      · exact rxEnd_streamInv h hm
      · exact h
  | thrRise =>
    cases s.dev.str.mode with
    | idle | txStreaming => exact h
    | rxStreaming =>
      dsimp only; split
      · exact drain_streamInv h
      · exact h
  | thrFall =>
    cases hm : s.dev.str.mode with
    | idle | rxStreaming => exact h
    | txStreaming =>
      dsimp only; split
      · exact refill_streamInv h hm
      · exact h
  | cancel => exact cancelStep_streamInv h

end Sys2Proof.Machine
end

section
/-! SUPPORT. Every instruction, turn and step keeps the invariant: the commands and handlers of the device half, the radio's own steps,
the starts of the halves, and the two halves put together. -/

namespace Sys2Proof.Machine

/-! ## The commands and the handlers of the device half (R104 to R111, R294) -/

/-- The streamer's share is kept; the receiver and `GIE` are as they were. -/
def StreamStep (s t : State) : Prop := StreamInv t ∧ t.dev.trd = s.dev.trd ∧ t.dev.gie = s.dev.gie

theorem StreamInv.step_refl {s : State} (h : StreamInv s) : StreamStep s s := ⟨h, rfl, rfl⟩

theorem strStepOp_streamStep {ev : Event} (hwf : ev.wf = true) {s : State} (h : StreamInv s) :
    Runs (StreamStep s) (strStepOp ev s) := by
  have hinv := strStepOp_streamInv hwf h
  cases he : strStepOp ev s with
  | next t =>
    obtain ⟨_, _, _, _, _, _, _, _, _, htrd, _, _, hgie⟩ := strStepOp_elsewhere he
    exact ⟨hinv.of_next he, htrd, hgie⟩
  | fault _ => trivial
  | refused r => exact strStepOp_ne_refused ev s r he

theorem execInit_streamStep {s : State} (h : StreamInv s) (p : Bytes) : Runs (StreamStep s) (execInit p s) := by
  unfold execInit; split
  · exact h.step_refl
  · exact ⟨StreamInv.after_respond (s := { s with dev.parms := p, dev.inited := true, radio.config := p }) h .init (by simp),
      rfl, rfl⟩

theorem execTx_streamStep {s : State} (h : StreamInv s) {p : Bytes} (hp : p.length ≤ 255) :
    Runs (StreamStep s) (execTx p s) := by
  unfold execTx; split
  · exact h.step_refl
  next hn => exact strStepOp_streamStep (by simp [Event.wf, txPayload]; omega) h

theorem execRx_streamStep {s : State} (h : StreamInv s) (p : Bytes) : Runs (StreamStep s) (execRx p s) := by
  unfold execRx; split
  · exact h.step_refl
  · exact strStepOp_streamStep rfl h

theorem execRxCancel_streamStep {s : State} (h : StreamInv s) (p : Bytes) : Runs (StreamStep s) (execRxCancel p s) :=
  Runs.andThen (strStepOp_streamStep rfl h) fun _ ⟨hu, htrd, hgie⟩ => ⟨hu.after_respond .rxCancel (by simp), htrd, hgie⟩

theorem execRadioStatus_streamStep {s : State} (h : StreamInv s) (p : Bytes) :
    Runs (StreamStep s) (execRadioStatus p s) := by
  have hlen : (radioSnapshot s).length ≤ 255 := by
    obtain ⟨⟨_, _, _, hst⟩, _⟩ := h
    simpa [radioSnapshot] using hst
  exact ⟨StreamInv.after_respond (s := countFree s) h .radioStatus hlen, rfl, rfl⟩

theorem execEchoTest_streamStep {s : State} (h : StreamInv s) {p : Bytes} (hp : p.length ≤ 255) :
    Runs (StreamStep s) (execEchoTest p s) := ⟨h.after_respond .echoTest hp, rfl, rfl⟩

/-- Whatever command block is dispatched (R104). -/
theorem commandDispatch_streamStep {s : State} (h : StreamInv s) (code : Byte) {p : Bytes} (hp : p.length ≤ 255) :
    Runs (StreamStep s) (commandDispatch code p s) := by
  unfold commandDispatch; split
  · exact execInit_streamStep h p
  · exact execTx_streamStep h hp
  · exact execRx_streamStep h p
  · exact execRxCancel_streamStep h p
  · exact execRadioStatus_streamStep h p
  · exact execEchoTest_streamStep h hp
  all_goals exact h.step_refl

/-! ## The device half -/

/-- The device half's share of `Inv`. -/
def DevInv (s : State) : Prop := StreamInv s ∧ TrdOk s.dev.trd ∧ s.dev.gie = true

/-- An operation that leaves the receiver and `GIE` alone. -/
theorem DevInv.of_streamStep {s : State} {o : Out} (h : DevInv s) (k : Runs (StreamStep s) o) : Runs DevInv o := by
  obtain ⟨_, htrd, hgie⟩ := h
  exact k.mono fun t ⟨ht, htrd', hgie'⟩ => ⟨ht, by rwa [htrd'], by rwa [hgie']⟩

/-- The receiver after one byte more: either whole, with a payload that fits, or still incomplete (R103). -/
theorem trdPush_cases {t : Trd} (h : TrdOk t) (b : Byte) :
    (trdPush t b).complete = true ∧ ((trdPush t b).acc.drop 2).length ≤ 255 ∨
      (trdPush t b).complete = false ∧ TrdOk (trdPush t b) := by
  obtain ⟨hhead, hbody⟩ := h
  obtain ⟨acc, expv, exp⟩ := t
  cases expv with
  | true =>
    obtain ⟨htwo, hsize, hlt⟩ := hbody rfl
    dsimp only at htwo hsize hlt
    have hpush : trdPush ⟨acc, true, exp⟩ b = ⟨acc ++ [b], true, exp⟩ := by simp [trdPush]
    rw [hpush]
    by_cases hlen : acc.length + 1 = exp.toNat + 2
    · have := exp.isLt
      exact .inl ⟨by simp [Trd.complete]; omega, by simp; omega⟩
    · refine .inr ⟨by simp [Trd.complete]; omega, by simp, fun _ => ⟨by simp; omega, ?_, by simp; omega⟩⟩
      rw [List.getD_append _ _ _ _ (by omega), hsize]
  | false =>
    match acc, hhead rfl with
    | [], _ => exact .inr ⟨rfl, by simp [TrdOk, trdPush]⟩
    | [a], _ =>
      by_cases hb : b.toNat = 0
      · exact .inl ⟨by simp [trdPush, Trd.complete, hb], by simp [trdPush]⟩
      · exact .inr ⟨by simp [trdPush, Trd.complete, hb], by simp [TrdOk, trdPush]; omega⟩

/-- The emptied receiver (R103). -/
theorem trdOk_of_empty {t : Trd} (hacc : t.acc = []) (hexpv : t.expv = false) : TrdOk t := by
  simp [TrdOk, hacc, hexpv]

/-- The bracket of the main loop leaves `GIE` set (R59). -/
theorem bracket_streamInv {f : State → Out} (hf : ∀ u, StreamInv u → Runs StreamInv (f u)) {s : State} (h : StreamInv s) :
    Runs (fun u => StreamInv u ∧ u.dev.gie = true) (bracket f s) :=
  Runs.andThen (hf _ h) fun _ hu => ⟨hu, rfl⟩

theorem execDevRecv_devInv {s : State} (h : DevInv s) : Runs DevInv (execDevRecv s) := by
  have ⟨hstream, htrd, hgie⟩ := h
  cases ha : s.lH2D.avail with
  | nil =>
    have hnone : execDevRecv s = .next s := by simp [execDevRecv, ha]
    rw [hnone]; exact h
  | cons b rest =>
    rcases trdPush_cases htrd b with ⟨hc, hlen⟩ | ⟨hc, hok⟩
    · rw [execDevRecv_complete ha hc]
      refine Runs.andThen (bracket_streamInv (fun u hu => ?_) hstream) fun u ⟨hu, hg⟩ => ⟨hu, trdOk_of_empty rfl rfl, hg⟩
      exact (commandDispatch_streamStep hu _ hlen).mono fun _ ⟨ht, _, _⟩ => ht
    · rw [execDevRecv_incomplete ha hc]
      exact ⟨hstream, hok, hgie⟩

theorem execDevSend_devInv {s : State} (h : DevInv s) : Runs DevInv (execDevSend s) := by
  have ⟨⟨hpar, houtq, hrest⟩, htrd, _⟩ := h
  unfold execDevSend; split
  · exact h
  next b rest e =>
    rw [e] at houtq
    exact ⟨⟨hpar, fun c hc => houtq c (List.mem_cons_of_mem _ hc), hrest⟩, htrd, rfl⟩

/-- A handler sets `GIE` again and clears its flag (R294, R295). -/
theorem takeInterrupt_devInv {s : State} (h : DevInv s) (x : Line) : Runs DevInv (takeInterrupt x strStepOp s) := by
  have ⟨hstream, htrd, _⟩ := h
  have hwf : (interruptEvent x s).wf = true := by unfold interruptEvent; split <;> rfl
  unfold takeInterrupt; split
  · exact Runs.andThen (strStepOp_streamStep (s := interruptEntry s) hwf hstream)
      fun u ⟨hu, htrd', _⟩ => ⟨hu.setIfg_false x, (congrArg TrdOk htrd').mpr htrd, rfl⟩
  · exact h

/-- An operation of the device half with its operands in range. -/
theorem exec_devInv {i : Instr} (hop : hostOp i = false) (hwf : i.wf = true) {s : State} (h : DevInv s) :
    Runs DevInv (exec i s) := by
  have hstream : StreamInv s := h.1
  have hev (ev : Event) (hin : ev.wf = true) : Runs DevInv (strStepOp ev s) :=
    h.of_streamStep (strStepOp_streamStep hin hstream)
  cases i with
  | init p => exact h.of_streamStep (execInit_streamStep hstream p)
  | tx p => exact h.of_streamStep (execTx_streamStep hstream (of_decide_eq_true hwf))
  | rx p => exact h.of_streamStep (execRx_streamStep hstream p)
  | rxCancel p => exact h.of_streamStep (execRxCancel_streamStep hstream p)
  | radioStatus p => exact h.of_streamStep (execRadioStatus_streamStep hstream p)
  | echoTest p => exact h.of_streamStep (execEchoTest_streamStep hstream (of_decide_eq_true hwf))
  | blockReserved dir ty p =>
    cases dir with
    | h2d => exact h
    | d2h => cases hop
  | stOk => exact h.of_streamStep ⟨hstream.after_composeStatusOp _ _, rfl, rfl⟩
  | stTxUnderflow | stTxNotEmpty =>
    exact h.of_streamStep ⟨reportTxError_streamInv hstream _, strobeFlushTx_trd s, strobeFlushTx_gie s⟩
  | stRxOverflow => exact h.of_streamStep ⟨reportRxOverflow_streamInv hstream, strobeFlushRx_trd s, strobeFlushRx_gie s⟩
  | evPktRise => exact hev .pktRise rfl
  | evPktFall => exact hev .pktFall rfl
  | evThrRise => exact hev .thrRise rfl
  | evThrFall => exact hev .thrFall rfl
  | evCancel => exact hev .cancel rfl
  | evTxStart p => exact hev (.txStart p) hwf
  | evRxStart rxlen => exact hev (.rxStart rxlen) rfl
  | strStep ev => exact hev ev hwf
  | devRecv => exact execDevRecv_devInv h
  | devDispatch code p => exact h.of_streamStep (commandDispatch_streamStep hstream code (of_decide_eq_true hwf))
  | devSend => exact execDevSend_devInv h
  | stopLines =>
    exact h.of_streamStep ⟨(((hstream.setIe_false .pkt).setIe_false .thr).setIfg_false .pkt).setIfg_false .thr, rfl, rfl⟩
  | composeStatus ty st => exact h.of_streamStep ⟨hstream.after_composeStatusOp ty st, rfl, rfl⟩
  | composeData ty p => exact h.of_streamStep ⟨hstream.after_respond ty (of_decide_eq_true hwf), rfl, rfl⟩
  | isrPkt => exact takeInterrupt_devInv h .pkt
  | isrThr => exact takeInterrupt_devInv h .thr
  | _ => cases hop

/-! ## The radio and the starts (R301, R302, R330) -/

theorem radioTxStep_streamStep {s : State} (h : StreamInv s) : StreamStep s (radioTxStep s) := by
  unfold radioTxStep; split
  · exact ⟨StreamInv.setLine_pkt (s := { s with radio.synced := true }) h true, by simp, by simp⟩
  · split
    · split
      next b rest e => exact ⟨h.after_updateThr rfl rfl (by simp [e]) h.rxFifo_le, by simp, by simp⟩
      next => exact ⟨StreamInv.setLine_pkt (s := { s with radio.txUnf := true }) h false, by simp, by simp⟩
    · exact ⟨h.setLine_pkt false, by simp, by simp⟩

theorem radioRxStep_streamStep {s : State} (h : StreamInv s) : StreamStep s (radioRxStep s) := by
  unfold radioRxStep; split
  · split
    next hroom => exact ⟨h.after_updateThr rfl rfl le_rfl (by simpa [rxCount] using hroom), by simp, by simp⟩
    next => exact h.step_refl
  · exact ⟨h.setLine_pkt false, by simp, by simp⟩

theorem radioStep_streamStep {s : State} (h : StreamInv s) : StreamStep s (radioStep s) := by
  unfold radioStep; split
  · exact h.step_refl
  · exact radioTxStep_streamStep h
  · split
    · exact radioRxStep_streamStep h
    · exact h.step_refl

theorem airPacket_streamStep {s : State} (h : StreamInv s) (air : Bytes) (rssi crclqi : Byte) :
    StreamStep s (airPacket air rssi crclqi s) := by
  unfold airPacket; split
  · exact ⟨h.setLine_pkt true, by simp, by simp⟩
  · exact h.step_refl

/-- After a power-up nothing is held, no line is enabled and both are low (R39, R330). -/
theorem powerUp_devInv {s : State} (hpar : LineParams s.par) : DevInv (powerUp s) := by
  have ⟨_, htx, hrx, _⟩ := hpar
  refine ⟨⟨hpar, by simp, ?_, ⟨by simp, by simp⟩, by simp, ?_, by simp⟩, trdOk_of_empty rfl rfl, rfl⟩
  · simp [StrOk, DevHalf.reset]
  · rw [pinOf_powerUp, thrLevel_powerUp s htx hrx]

/-- A host start leaves the reader and the buffers empty and the start of the loop to do (R39, R332). -/
theorem hostStart_hostInv (keyup keydown : Nat) (s : State) : HostInv (hostStart keyup keydown s) :=
  ⟨trhOk_of_empty rfl, schReset_ok _ _, rfl⟩

theorem powerUp_dev (s : State) :
    (powerUp s).dev = { DevHalf.reset with parms := List.replicate s.par.parmsLen 0 } := rfl

theorem hostStart_host (keyup keydown : Nat) (s : State) :
    (hostStart keyup keydown s).host =
      { HostHalf.reset with
        sch := Sch.reset s.now
        tnc := { HostHalf.reset.tnc with keyup := keyup, keydown := keydown }
        cfg := s.host.cfg } := rfl

/-- The parameters of the test vectors, which `State.reset` has, are among those the invariant asks for. -/
theorem lineParams_vectors : LineParams Params.vectors := by unfold LineParams; decide

/-- Before INIT the device ignores TX and RX (R111, R332). -/
theorem exec_start_of_not_inited {s : State} (h : s.dev.inited = false) (p : Bytes) :
    exec (.tx p) s = .next s ∧ exec (.rx p) s = .next s := by
  simp [exec, execTx, execRx, h, ignoreCommand]

/-! ## The two halves together -/

/-- Both halves' shares. -/
def BothInv (s : State) : Prop := HostInv s ∧ DevInv s

theorem Inv.bothInv {s : State} (h : Inv s) (hpar : LineParams s.par) : BothInv s :=
  ⟨⟨h.trhBound, ⟨h.bufBound, h.triBytes⟩, List.all_eq_true.mpr h.ctlOk⟩,
    ⟨hpar, h.outqWhole, ⟨h.txLen, h.txPos, h.rxBound⟩, ⟨h.fifoBound, h.txFifoIdle⟩, h.refillRoom, h.thrPin, h.idleLines⟩,
    ⟨h.trdHead, h.trdBody⟩, h.gieOn⟩

theorem BothInv.inv {s : State} (h : BothInv s) : Inv s := by
  obtain ⟨⟨htrh, ⟨hbuf, htri⟩, hctl⟩, ⟨_, houtq, ⟨htxlen, htxpos, hrx⟩, ⟨hfifo, hempty⟩, hroom, hpin, hidle⟩,
    ⟨hhead, hbody⟩, hgie⟩ := h
  exact {
    trdHead := hhead, trdBody := hbody, trhBound := htrh, outqWhole := houtq, txLen := htxlen, txPos := htxpos, rxBound := hrx
    fifoBound := hfifo, txFifoIdle := hempty, refillRoom := hroom, thrPin := hpin, idleLines := hidle, gieOn := hgie
    bufBound := hbuf, triBytes := htri, ctlOk := List.all_eq_true.mp hctl }

/-- A state that differs in the host half, the clock, the channels and the log only, written out (R20). -/
theorem HostOnly.eq {s t : State} (h : HostOnly s t) : t = { s with
    now := t.now, host := t.host, lH2D := t.lH2D, lD2H := t.lD2H, termIn := t.termIn, termOut := t.termOut, log := t.log } := by
  obtain ⟨hpar, _, _, hdev, hradio, hagenda, hfree⟩ := h
  exact state_ext hpar rfl rfl hdev rfl rfl rfl rfl rfl hradio hagenda hfree

/-- A state that differs in the device half, the radio, the link and the free counter only, written out (R20). -/
theorem DevOnly.eq {s t : State} (h : DevOnly s t) : t = { s with
    dev := t.dev, lH2D := t.lH2D, lD2H := t.lD2H, radio := t.radio, freeCtr := t.freeCtr } := by
  obtain ⟨hpar, hnow, hhost, hin, hout, hlog, hagenda⟩ := h
  exact state_ext hpar hnow hhost rfl rfl rfl hin hout hlog rfl hagenda rfl

/-- What changes nothing of the device half and the radio keeps the device's share. -/
theorem DevInv.of_hostOnly {s t : State} (h : DevInv s) (k : HostOnly s t) : DevInv t := by
  rw [k.eq]; exact h

theorem Runs.and {P Q : State → Prop} {o : Out} (h : Runs P o) (k : Runs Q o) : Runs (fun t => P t ∧ Q t) o := by
  cases o with
  | next t => exact ⟨h, k⟩
  | fault _ => trivial
  | refused _ => exact h

/-- An instruction with its operands in range, of either half. -/
theorem exec_bothInv {i : Instr} (hwf : i.wf = true) {s : State} (h : BothInv s) : Runs BothInv (exec i s) := by
  obtain ⟨hhost, hdev⟩ := h
  cases hop : hostOp i with
  | true =>
    exact (Runs.and (exec_hostInv hop hhost) (exec_hostOnly hop s)).mono fun t ⟨ht, hk⟩ => ⟨ht, hdev.of_hostOnly hk⟩
  | false =>
    exact (Runs.and (exec_devInv hop hwf hdev) (exec_devOnly hop s)).mono fun t ⟨ht, hk⟩ => ⟨hhost.of_devOnly hk, ht⟩

/-- A call is run when its operands are in range, and otherwise answered (log entry 14). -/
theorem execChecked_bothInv (i : Instr) {s : State} (h : BothInv s) : Runs BothInv (execChecked i s) := by
  unfold execChecked; split
  next hwf => exact exec_bothInv hwf h
  next => unfold refuseCall; split <;> exact h

theorem runTask_devInv (task : Task) {s : State} (h : DevInv s) : Runs DevInv (runTask task s) := by
  cases task with
  | call | awaitInit | awaitTx | awaitRx | awaitCancel | awaitReply | pollSleep | sleep => exact h
  | poll => exact (pollOp_hostOnly s).mono fun _ => h.of_hostOnly
  | initAttempt => exact h.of_hostOnly (sendCommandOp_hostOnly _ _ s)
  | exchange c p => exact h.of_hostOnly (exchangeOp_hostOnly c p s)
  | packetBlock p b delay => exact h.of_hostOnly (packetBlockOp_hostOnly p b delay s)
  | packetSent p b delay => exact h.of_hostOnly (packetSentOp_hostOnly p b delay s)
  | blockReceived b tInter => exact h.of_hostOnly (blockReceivedOp_hostOnly b tInter s)
  | step1Done => exact h.of_hostOnly (step1DoneOp_hostOnly s)
  | flushTProcess => exact h.of_hostOnly (flushTProcessOp_hostOnly s)
  | flushTSent => exact h.of_hostOnly (flushTSentOp_hostOnly s)
  | flushTEnd => exact h.of_hostOnly (flushTEndOp_hostOnly s)
  | loopTail => exact h.of_hostOnly (loopTailOp_hostOnly s)

theorem hostStep_bothInv {s : State} (h : BothInv s) : Runs BothInv (hostStep s) := by
  have ⟨hhost, hdev⟩ := h
  unfold hostStep; split
  · exact h
  next i k e => exact execChecked_bothInv i ⟨hhost.setCtl_tail e, hdev⟩
  next task k _ e => exact Runs.and (runTask_hostInv task (hhost.setCtl_tail e)) (runTask_devInv task hdev)

/-- The radio and the air leave the host half, the receiver and `GIE` alone. -/
theorem BothInv.of_streamStep {s t : State} (h : BothInv s) (k : StreamStep s t) (hd : DevOnly s t) : BothInv t :=
  ⟨h.1.of_devOnly hd, DevInv.of_streamStep (o := .next t) h.2 k⟩

/-- Whoever takes the turn, and whatever the environment chooses in it. -/
theorem runTurn_bothInv (τ : Turn) {s : State} (h : BothInv s) : Runs BothInv (runTurn τ s) := by
  have ⟨hhost, hdev⟩ := h
  have hstream : StreamInv s := hdev.1
  cases τ with
  | host => exact hostStep_bothInv h
  | devRecv => exact exec_bothInv (i := .devRecv) rfl h
  | devSend => exact exec_bothInv (i := .devSend) rfl h
  | isrPkt | isrThr =>
    unfold runTurn; dsimp only; split
    · exact exec_bothInv rfl h
    · exact h
  | radio => exact h.of_streamStep (radioStep_streamStep hstream) (radioStep_devOnly s)
  | air air rssi crclqi => exact h.of_streamStep (airPacket_streamStep hstream _ _ _) (airPacket_devOnly air rssi crclqi s)
  | airLen a => unfold runTurn chooseAirLen; dsimp only [Runs]; split <;> exact h
  | direct i => exact execChecked_bothInv i h
  | exchange c p => exact ⟨askExchange_hostInv hhost c p, by unfold askExchange; split <;> exact hdev⟩
  | devPowerUp => exact ⟨hhost, powerUp_devInv hstream.1⟩
  | hostStart keyup keydown => exact ⟨hostStart_hostInv _ _ _, hdev⟩
  | linkH2D | linkD2H | termPut | termTake | tick => exact h

/-- A step keeps both halves' shares: the turn taken off the agenda is no matter to them. -/
theorem agentStep_bothInv {s : State} (h : BothInv s) : Runs BothInv (agentStep s) := by
  unfold agentStep
  split
  next τ u e => exact runTurn_bothInv τ (by rw [nextTurn_rest e]; exact h)
  next u e => rw [nextTurn_rest e]; exact h

/-- Every step lets some ticks pass, and writes neither the parameters nor the configuration registers (R8, R25). -/
theorem step_ticksPass_exists {s t : State} (h : step s = .next t) : ∃ n, TicksPass n s t := by
  cases hturn : nextTurn s with
  | mk τ u =>
    cases τ with
    | some τ => exact ⟨_, step_ticksPass hturn h⟩
    | none =>
      have hu := nextTurn_rest hturn
      cases hc : configOk s with
      | true =>
        rw [step_of_config hc, agentStep, hturn] at h
        injection h with h
        rw [← h, hu]
        exact ⟨0, .zero s⟩
      | false => rw [step_of_bad_config hc] at h; cases h

end Sys2Proof.Machine
end

section
/-! SUPPORT. The streamer's mode: which instructions enter and leave streaming (R21 (a), R150). -/

namespace Sys2Proof.Machine

/-- The mode stays, or streaming is entered from `IDLE`, or it is left to `IDLE` because `ends` holds. -/
def ModeStep (ends : Prop) (s t : State) : Prop :=
  t.dev.str.mode = s.dev.str.mode ∨ (s.dev.str.mode = .idle ∧ t.dev.str.mode ≠ .idle) ∨ (t.dev.str.mode = .idle ∧ ends)

theorem ModeStep.mono {p q : Prop} {s t : State} (h : ModeStep p s t) (hpq : p → q) : ModeStep q s t := by
  rcases h with hsame | henter | ⟨hidle, hp⟩
  · exact .inl hsame
  · exact .inr (.inl henter)
  · exact .inr (.inr ⟨hidle, hpq hp⟩)

theorem txSetup_modeStep {s : State} (hm : s.dev.str.mode = .idle) (p : Bytes) (ends : Prop) :
    Runs (ModeStep ends s) (txSetup p s) := by
  by_cases hf : fitsTxFifo (txHead p s) s
  · rw [txSetup_of_fits p s hf]; exact .inr (.inl ⟨hm, by simp⟩)
  · rw [txSetup_of_not_fits p s hf]; trivial

theorem refill_modeStep (s : State) (ends : Prop) : Runs (ModeStep ends s) (refill s) := by
  by_cases hf : fitsTxFifo (txNext s) s
  · rw [refill_of_fits s hf]; refine .inl ?_; split <;> simp
  · rw [refill_of_not_fits s hf]; trivial

theorem drain_modeStep (s : State) (ends : Prop) : Runs (ModeStep ends s) (drain s) := by
  rw [drain_next s _ rfl]; exact .inl (by simp)

theorem rxEnd_modeStep (s : State) {ends : Prop} (h : ends) : Runs (ModeStep ends s) (rxEnd s) := by
  cases ho : s.radio.rxOvf with
  | true => rw [rxEnd_of_overflow s ho]; exact .inr (.inr ⟨rfl, h⟩)
  | false => rw [rxEnd_of_no_overflow s _ ho rfl]; exact .inr (.inr ⟨rfl, h⟩)

/-- The cells of R150's table, by what they do to the mode: the two starts enter from `IDLE`, the falling edge of the packet line and
the cancel leave to it, the others stay. -/
theorem strStepOp_modeStep (ev : Event) (s : State) :
    Runs (ModeStep (ev = .pktFall ∨ ev = .cancel) s) (strStepOp ev s) := by
  have hstay {ends : Prop} : ModeStep ends s s := .inl rfl
  unfold strStepOp
  cases ev with
  | txStart p =>
    cases hm : s.dev.str.mode with
    | idle => exact txSetup_modeStep hm p _
    | txStreaming | rxStreaming => exact hstay
  | rxStart rxlen =>
    cases hm : s.dev.str.mode with
    | idle => exact .inr (.inl ⟨hm, by simp⟩)
    | txStreaming | rxStreaming => exact hstay
  | pktRise =>
    cases s.dev.str.mode with
    | idle => exact hstay
    | txStreaming | rxStreaming => dsimp only [Runs]; split <;> exact hstay
  | pktFall =>
    cases s.dev.str.mode with
    | idle => exact hstay
    | txStreaming =>
      dsimp only [Runs]; split
      · exact .inr (.inr ⟨rfl, .inl rfl⟩)
      · exact hstay
    | rxStreaming =>
      dsimp only; split
      · exact rxEnd_modeStep s (.inl rfl)
      · exact hstay
  | thrRise =>
    cases s.dev.str.mode with
    | idle | txStreaming => exact hstay
    | rxStreaming =>
      dsimp only; split
      · exact drain_modeStep s _
      · exact hstay
  | thrFall =>
    cases s.dev.str.mode with
    | idle | rxStreaming => exact hstay
    | txStreaming =>
      dsimp only; split
      · exact refill_modeStep s _
      · exact hstay
  | cancel => exact .inr (.inr ⟨rfl, .inr rfl⟩)

/-- A handler ends streaming only when it is the packet line's and the falling edge is selected (R294). -/
theorem takeInterrupt_modeStep (x : Line) (s : State) :
    Runs (ModeStep (x = .pkt ∧ iesOf .pkt s = true) s) (takeInterrupt x strStepOp s) := by
  unfold takeInterrupt; split
  · refine Runs.andThen (strStepOp_modeStep (interruptEvent x s) (interruptEntry s)) fun u hu => ?_
    refine ModeStep.mono (s := s) (t := interruptReturn x u) hu ?_
    unfold interruptEvent; split <;> simp_all
  · exact .inl rfl

/-- A dispatched command ends streaming only when its type is that of RX_CANCEL (R104, R108). -/
theorem commandDispatch_modeStep (code : Byte) (p : Bytes) (s : State) :
    Runs (ModeStep (code = 0x04) s) (commandDispatch code p s) := by
  have hstay : ModeStep (code = 0x04) s s := .inl rfl
  have hstart (ev : Event) (hev : ¬(ev = .pktFall ∨ ev = .cancel)) : Runs (ModeStep (code = 0x04) s) (strStepOp ev s) :=
    (strStepOp_modeStep ev s).mono fun _ ht => ht.mono fun h => absurd h hev
  unfold commandDispatch; split
  next => unfold execInit; split <;> exact hstay
  next =>
    unfold execTx; split
    · exact hstay
    · exact hstart _ (by simp)
  next =>
    unfold execRx; split
    · exact hstay
    · exact hstart _ (by simp)
  next hty => exact .inr (.inr ⟨rfl, (blockTypeOf_code hty).symm⟩)
  all_goals exact hstay

theorem trdPush_acc (t : Trd) (b : Byte) : (trdPush t b).acc = t.acc ++ [b] := by
  unfold trdPush; dsimp only; split <;> rfl

/-- `DEV_RECV` ends streaming only with a block whose first byte is the type of RX_CANCEL (R103, R104). -/
theorem execDevRecv_modeStep (s : State) :
    Runs (ModeStep ((trdPush s.dev.trd (s.lH2D.avail.headD 0)).acc.head? = some 0x04) s) (execDevRecv s) := by
  cases ha : s.lH2D.avail with
  | nil =>
    have hnone : execDevRecv s = .next s := by simp [execDevRecv, ha]
    rw [hnone]; exact .inl rfl
  | cons b rest =>
    cases hc : (trdPush s.dev.trd b).complete with
    | true =>
      have hhead : (trdPush s.dev.trd b).acc.headD 0 = 0x04 → (trdPush s.dev.trd b).acc.head? = some 0x04 := by
        rw [trdPush_acc]; cases s.dev.trd.acc <;> simp
      rw [execDevRecv_complete ha hc]
      refine Runs.andThen (P := ModeStep ((trdPush s.dev.trd b).acc.headD 0 = 0x04) s) ?_ fun u hu => hu.mono hhead
      exact Runs.andThen (commandDispatch_modeStep _ _ _) fun u hu => hu
    | false => rw [execDevRecv_incomplete ha hc]; exact .inl rfl

/-- The instructions that may leave streaming: the packet line's falling edge, however it arrives, and the cancel, however it is
called (R150). -/
def EndsStreaming (i : Instr) (s : State) : Prop :=
  i = .evPktFall ∨ i = .strStep .pktFall ∨ (i = .isrPkt ∧ iesOf .pkt s = true) ∨ i = .evCancel ∨ i = .strStep .cancel ∨
    (∃ p, i = .rxCancel p) ∨ (∃ p, i = .devDispatch 0x04 p) ∨
    (i = .devRecv ∧ (trdPush s.dev.trd (s.lH2D.avail.headD 0)).acc.head? = some 0x04)

theorem exec_modeStep (i : Instr) (s : State) : Runs (ModeStep (EndsStreaming i s) s) (exec i s) := by
  have hev (ev : Event) (h : ev = .pktFall ∨ ev = .cancel → EndsStreaming i s) :
      Runs (ModeStep (EndsStreaming i s) s) (strStepOp ev s) := (strStepOp_modeStep ev s).mono fun _ ht => ht.mono h
  have hcmd (code : Byte) (p : Bytes) (h : code = 0x04 → EndsStreaming i s) :
      Runs (ModeStep (EndsStreaming i s) s) (commandDispatch code p s) :=
    (commandDispatch_modeStep code p s).mono fun _ ht => ht.mono h
  have hstr {t : State} (h : t.dev.str = s.dev.str) : ModeStep (EndsStreaming i s) s t := .inl (by rw [h])
  cases hop : hostOp i with
  | true => exact (exec_hostOnly hop s).mono fun t ⟨_, _, _, hdev, _⟩ => hstr (by rw [hdev])
  | false =>
    cases i with
    | init p => exact hcmd 0x01 p (by simp)
    | tx p => exact hcmd 0x02 p (by simp)
    | rx p => exact hcmd 0x03 p (by simp)
    | rxCancel p => exact hcmd 0x04 p fun _ => by simp [EndsStreaming]
    | evPktRise => exact hev .pktRise (by simp)
    | evPktFall => exact hev .pktFall fun _ => by simp [EndsStreaming]
    | evThrRise => exact hev .thrRise (by simp)
    | evThrFall => exact hev .thrFall (by simp)
    | evCancel => exact hev .cancel fun _ => by simp [EndsStreaming]
    | evTxStart p => exact hev (.txStart p) (by simp)
    | evRxStart rxlen => exact hev (.rxStart rxlen) (by simp)
    | strStep ev => exact hev ev fun h => by rcases h with rfl | rfl <;> simp [EndsStreaming]
    | devRecv => exact (execDevRecv_modeStep s).mono fun _ ht => ht.mono fun h => by simpa [EndsStreaming] using h
    | devDispatch code p => exact hcmd code p (by rintro rfl; simp [EndsStreaming])
    | devSend => unfold exec execDevSend; dsimp only; split <;> exact hstr rfl
    | isrPkt => exact (takeInterrupt_modeStep .pkt s).mono fun _ ht => ht.mono fun ⟨_, h⟩ => by simp [EndsStreaming, h]
    | isrThr => exact (takeInterrupt_modeStep .thr s).mono fun _ ht => ht.mono fun ⟨h, _⟩ => nomatch h
    | stTxUnderflow | stTxNotEmpty => exact hstr (strobeFlushTx_str s)
    | stRxOverflow => exact hstr (strobeFlushRx_str s)
    | blockReserved dir ty p =>
      cases dir with
      | h2d => exact hstr rfl
      | d2h => cases hop
    | radioStatus | echoTest | stOk | stopLines | composeStatus | composeData => exact hstr rfl
    | _ => cases hop

end Sys2Proof.Machine
end

section
/-! The rules on the state (`10_state.md`): its resets, what the halves share, what is never written, and the invariant. -/

namespace Sys2Proof.Machine

/-- Settles O50: each half's share of the invariant is kept by its own instructions (`exec_hostInv`, `exec_devInv`) and is no matter to
the other half's (R20), so every turn keeps both (`runTurn_bothInv`). -/
theorem everyStepKeepsInv : Obligations.EveryStepKeepsInv := by
  unfold Obligations.EveryStepKeepsInv
  intro s t hinv hstep
  cases hc : configOk s with
  | true =>
    rw [step_of_config hc] at hstep
    exact ((agentStep_bothInv (hinv.bothInv (lineParams_of_config hc))).of_next hstep).inv
  | false => rw [step_of_bad_config hc] at hstep; cases hstep

/-- Settles O54: a step lets the ticks of its turn pass and keeps the rest (`step_ticksPass`); with no turn to take, nothing changes. -/
theorem configurationIsNeverWritten : Obligations.ConfigurationIsNeverWritten := by
  unfold Obligations.ConfigurationIsNeverWritten
  intro s t hstep
  obtain ⟨n, hnow, hpar, hcfg⟩ := step_ticksPass_exists hstep
  exact ⟨hcfg, hpar, by omega⟩

/-- Settles O55: the frames of the two halves (`exec_hostOnly`, `exec_devOnly`), written out. -/
theorem halvesShareOnlyTheLink : Obligations.HalvesShareOnlyTheLink := by
  unfold Obligations.HalvesShareOnlyTheLink
  intro i s t hexec
  exact ⟨fun hop => ((exec_hostOnly hop s).of_next hexec).eq, fun hop => ((exec_devOnly hop s).of_next hexec).eq⟩

/-- Settles O57: an instruction that changes the mode enters streaming from `IDLE` or is one that may end it (`exec_modeStep`). -/
theorem streamingEndsByFallOrCancel : Obligations.StreamingEndsByFallOrCancel := by
  unfold Obligations.StreamingEndsByFallOrCancel
  intro i s t hexec hne
  rcases (exec_modeStep i s).of_next hexec with hsame | ⟨hidle, hstream⟩ | ⟨hidle, hends⟩
  · exact absurd hsame hne
  · exact ⟨.inl hidle, fun h => absurd h hstream⟩
  · exact ⟨.inr hidle, fun _ => hends⟩

/-- Settles O49: the machine right after reset is the one both starts leave, and each start establishes its half's share. -/
theorem invAtReset : Obligations.InvAtReset := by
  unfold Obligations.InvAtReset
  have hboth : BothInv (hostStart 0 0 (powerUp State.reset)) :=
    ⟨hostStart_hostInv 0 0 _, powerUp_devInv (s := State.reset) lineParams_vectors⟩
  exact BothInv.inv (s := State.reset) hboth

/-- Settles O60: the values by computation; that nothing survives because each start writes its half out of the parameters, the clock
and the configuration registers alone (`powerUp_dev`, `hostStart_host`). -/
theorem resetLeavesTheStatedValues : Obligations.ResetLeavesTheStatedValues := by
  unfold Obligations.ResetLeavesTheStatedValues
  refine ⟨?reset, fun s => ⟨powerUp s, rfl, rfl, fun x => ?lines, fun p => ?ignored⟩,
    fun s keyup keydown => ⟨hostStart keyup keydown s, rfl, rfl⟩, fun s₁ s₂ t₁ t₂ => ⟨?device, ?host⟩⟩
  case reset =>
    exact ⟨rfl, rfl, rfl, rfl, rfl, rfl, rfl, fun x => by cases x <;> decide, rfl, rfl, rfl, rfl, rfl, rfl, rfl, rfl, rfl⟩
  case lines => exact ⟨ieOf_powerUp x s, ifgOf_powerUp x s, iesOf_powerUp x s, pinOf_powerUp x s⟩
  case ignored => exact exec_start_of_not_inited (powerUp_inited s) p
  case device =>
    rintro hpar ⟨rfl⟩ ⟨rfl⟩
    rw [powerUp_dev, powerUp_dev, hpar]
  case host =>
    rintro hnow hcfg keyup keydown ⟨rfl⟩ ⟨rfl⟩
    rw [hostStart_host, hostStart_host, hnow, hcfg]

end Sys2Proof.Machine
end

section
/-! SUPPORT. What the operations of the host half do to the link, and that each answers a next state: it puts one whole command block or
nothing on `L_H2D` (R100), and only a poll takes from `L_D2H` (R101). -/

namespace Sys2Proof.Machine

/-! ## Outcomes with their faults -/

/-- A next state has `P`, a fault has `F`, and nothing is refused. `Runs P` says nothing of the faults. -/
def Yields (P : State → Prop) (F : Fault → Prop) : Out → Prop
  | .next t => P t
  | .fault f => F f
  | .refused _ => False

/-- The outcome is a next state, and has `P`. -/
def Answers (P : State → Prop) (o : Out) : Prop := Yields P (fun _ => False) o

theorem Yields.of_next {P : State → Prop} {F : Fault → Prop} {o : Out} {t : State} (h : Yields P F o) (e : o = .next t) : P t := by
  subst e; exact h

theorem Yields.of_fault {P : State → Prop} {F : Fault → Prop} {o : Out} {f : Fault} (h : Yields P F o) (e : o = .fault f) : F f := by
  subst e; exact h

theorem Answers.ne_fault {P : State → Prop} {o : Out} (h : Answers P o) (f : Fault) : o ≠ .fault f := Yields.of_fault h

theorem Yields.mono {P Q : State → Prop} {F G : Fault → Prop} {o : Out} (h : Yields P F o) (hpq : ∀ t, P t → Q t)
    (hfg : ∀ f, F f → G f) : Yields Q G o := by
  cases o with
  | next t => exact hpq t h
  | fault f => exact hfg f h
  | refused _ => exact h

theorem Answers.mono {P Q : State → Prop} {o : Out} (h : Answers P o) (hpq : ∀ t, P t → Q t) : Answers Q o :=
  Yields.mono h hpq fun _ => id

theorem Answers.yields {P : State → Prop} {o : Out} (h : Answers P o) (F : Fault → Prop) : Yields P F o :=
  Yields.mono h (fun _ => id) fun _ => False.elim

theorem Yields.andThen {P Q : State → Prop} {F : Fault → Prop} {o : Out} {k : State → Out} (h : Yields P F o)
    (hk : ∀ u, P u → Yields Q F (k u)) : Yields Q F (andThen o k) := by
  cases o with
  | next u => exact hk u h
  | fault _ => exact h
  | refused _ => exact h

/-! ## The effect on the link (R56) -/

/-- The two channels of the link. -/
def linkOf (s : State) : Chan × Chan := (s.lH2D, s.lD2H)

/-- A step taken only under a condition. -/
theorem linkOf_ite {s t : State} (h : linkOf t = linkOf s) (c : Bool) : linkOf (if c then t else s) = linkOf s := by
  cases c
  · rfl
  · exact h

/-- A whole command block (R70, R100). -/
def CommandBlock (b : Bytes) : Prop :=
  ∃ (c : Cmd) (size : Byte) (p : Bytes), size.toNat = p.length ∧ b = typeCode c.blockType :: size :: p

/-- What a step does to the link when it calls the instruction `c`, or none, and polls with the reader `r`, or does not poll: `DEV_RECV`
takes one byte, a poll what `pollBytes` takes, `DEV_SEND` puts the head of `OUTQ`; a command block is put only if `sends`. -/
def LinkEffect (c : Option Instr) (r : Option Trh) (sends : Prop) (s t : State) : Prop :=
  t.lH2D.avail = (if c = some .devRecv then s.lH2D.avail.drop 1 else s.lH2D.avail) ∧
    (∃ put, t.lH2D.flight = s.lH2D.flight ++ put ∧ (put ≠ [] → sends ∧ CommandBlock put)) ∧
    t.lD2H.avail = (r.map fun reader => (pollBytes reader s.lD2H.avail).2).getD s.lD2H.avail ∧
    t.lD2H.flight = s.lD2H.flight ++ (if c = some .devSend then s.dev.outq.headD [] else [])

/-- The effect of a host operation that does not poll: it puts a command block or nothing. -/
def HostPuts (s t : State) : Prop := LinkEffect none none True s t

/-- The instructions that take bytes from the link or put them on `L_D2H`. -/
def movesLink : Instr → Bool
  | .devRecv => true
  | .devSend => true
  | .readBlock _ => true
  | _ => false

/-- The reader with which a call polls, made from the one that stands in `TRH` (R101). -/
def callReader (t : Trh) : Instr → Option Trh
  | .readBlock n => some { t with acc := [], expv := false, budget := n }
  | _ => none

theorem callReader_of_not_moves {i : Instr} (h : movesLink i = false) (t : Trh) : callReader t i = none := by
  unfold callReader; split
  · cases h
  · rfl

theorem movesLink_of_not_wf {i : Instr} (h : i.wf = false) : movesLink i = false := by
  unfold movesLink; split
  · cases h
  · cases h
  · cases h
  · rfl

/-- A step that leaves both channels as they are. -/
theorem linkEffect_none_of_linkOf {s t : State} (h : linkOf t = linkOf s) (sends : Prop) : LinkEffect none none sends s t := by
  obtain ⟨hH2D, hD2H⟩ := Prod.mk.inj h
  simp [LinkEffect, hH2D, hD2H]

/-- A call that takes nothing from the link has the effect of no call; what it puts may be told apart further. -/
theorem LinkEffect.call {i : Instr} {p q : Prop} {s t : State} (h : LinkEffect none none p s t) (hi : movesLink i = false)
    (hpq : p → q) (r : Trh) : LinkEffect (some i) (callReader r i) q s t := by
  have hrecv : i ≠ .devRecv := by rintro rfl; cases hi
  have hsend : i ≠ .devSend := by rintro rfl; cases hi
  obtain ⟨havail, ⟨put, hput, hblock⟩, hrest⟩ := h
  rw [callReader_of_not_moves hi]
  refine ⟨by simpa [hrecv] using havail, ⟨put, hput, fun hne => ?_⟩, by simpa [hsend] using hrest⟩
  obtain ⟨hp, hb⟩ := hblock hne
  exact ⟨hpq hp, hb⟩

theorem LinkEffect.mono {c : Option Instr} {r : Option Trh} {p q : Prop} {s t : State} (h : LinkEffect c r p s t)
    (hpq : p → q) : LinkEffect c r q s t := by
  obtain ⟨havail, ⟨put, hput, hblock⟩, hrest⟩ := h
  exact ⟨havail, ⟨put, hput, fun hne => (hblock hne).imp_left hpq⟩, hrest⟩

/-! ## Answers (R101, R113)

As in the host half's frame, an update of the state that names no channel keeps the link by computation. -/

theorem initFailed_linkOf (n : Nat) (s : State) : linkOf (initFailed n s) = linkOf s := by
  unfold initFailed; dsimp only; split <;> rfl

theorem endExchange_linkOf (r : Result) (s : State) : linkOf (endExchange r s) = linkOf s := by
  unfold endExchange logFailure; split <;> rfl

theorem answerInit_linkOf (n : Nat) (ty : Byte) (s : State) : linkOf (answerInit n ty s) = linkOf s := by
  unfold answerInit; split
  · rfl
  · exact initFailed_linkOf n s

theorem answerCancel_linkOf (ty : Byte) (s : State) : linkOf (answerCancel ty s) = linkOf s := by
  unfold answerCancel; split <;> rfl

theorem answerReply_linkOf (c : Cmd) (ty : Byte) (p : Bytes) (s : State) : linkOf (answerReply c ty p s) = linkOf s := by
  unfold answerReply; split
  · rfl
  · exact endExchange_linkOf _ s

/-- Whatever waits for a block sends nothing when it gets one. -/
theorem hostAnswer_linkOf (ty : Byte) (p : Bytes) (s : State) : linkOf (hostAnswer ty p s) = linkOf s := by
  unfold hostAnswer; split
  · exact answerInit_linkOf _ ty (setCtl _ s)
  · exact endExchange_linkOf _ (setCtl _ s)
  · exact endExchange_linkOf _ (setCtl _ s)
  · exact answerCancel_linkOf ty (setCtl _ s)
  · exact answerReply_linkOf _ ty p (setCtl _ s)
  · rfl

/-- Nor when none comes: a second INIT is left to do (R114). -/
theorem hostTimeout_linkOf (s : State) : linkOf (hostTimeout s) = linkOf s := by
  unfold hostTimeout; split
  · exact initFailed_linkOf _ (setCtl _ s)
  all_goals rfl

/-- All a poll does to the link: it takes what `pollBytes` takes (R101). -/
theorem pollOp_linkOf (s : State) :
    Answers (fun t => linkOf t = (s.lH2D, { s.lD2H with avail := (pollBytes s.host.trh s.lD2H.avail).2 })) (pollOp s) := by
  unfold pollOp; dsimp only; split
  · rw [replyDispatch_eq]; exact hostAnswer_linkOf _ _ _
  · split
    · exact hostTimeout_linkOf _
    · rfl

/-- A poll, by whatever turn or call that is not one of the device half's. -/
theorem pollOp_linkEffect {c : Option Instr} (hrecv : c ≠ some .devRecv) (hsend : c ≠ some .devSend) (s : State) (sends : Prop) :
    Answers (LinkEffect c (some s.host.trh) sends s) (pollOp s) :=
  (pollOp_linkOf s).mono fun t ht => by
    obtain ⟨hH2D, hD2H⟩ := Prod.mk.inj ht
    simp [LinkEffect, hH2D, hD2H, hrecv, hsend]

/-! ## Sending (R100) -/

theorem commandBlock_blockBytes (c : Cmd) {p : Bytes} (h : p.length ≤ 255) :
    CommandBlock (blockBytes (typeCode c.blockType) p) :=
  ⟨c, BitVec.ofNat 8 p.length, p, by simp; omega, rfl⟩

theorem hostPuts_of_linkOf {s t : State} (h : linkOf t = linkOf s) : HostPuts s t := linkEffect_none_of_linkOf h True

theorem sendCommandOp_puts (c : Cmd) (p : Bytes) (s : State) : HostPuts s (sendCommandOp c p s) := by
  by_cases h : p.length ≤ 255
  · rw [sendCommandOp_of_fits c h]
    exact ⟨rfl, ⟨_, rfl, fun _ => ⟨trivial, commandBlock_blockBytes c h⟩⟩, rfl, (List.append_nil _).symm⟩
  · rw [sendCommandOp_of_not_fits c (by omega)]
    exact hostPuts_of_linkOf rfl

theorem exchangeOp_puts (c : Cmd) (p : Bytes) (s : State) : HostPuts s (exchangeOp c p s) := by
  unfold exchangeOp; split <;> exact sendCommandOp_puts c p s

theorem packetBlockOp_puts (p : Bytes) (b delay : Nat) (s : State) : HostPuts s (packetBlockOp p b delay s) :=
  sendCommandOp_puts .tx _ (pushTasks _ s)

theorem execSendPacket_puts (p : Bytes) (b delay : Nat) (s : State) : Answers (HostPuts s) (execSendPacket p b delay s) := by
  unfold execSendPacket; dsimp only; split
  · exact hostPuts_of_linkOf rfl
  · split
    · exact hostPuts_of_linkOf rfl
    · exact packetBlockOp_puts p b delay _

theorem execSendBlock_puts (cd : Byte) (chunk : Bytes) (s : State) : Answers (HostPuts s) (execSendBlock cd chunk s) := by
  unfold execSendBlock; split
  · exact sendCommandOp_puts .tx _ s
  · exact hostPuts_of_linkOf rfl

theorem receiveBlockOp_puts (b : Byte) (t : Nat) (skip : Bool) (s : State) : HostPuts s (receiveBlockOp b t skip s) := by
  unfold receiveBlockOp; split
  · exact hostPuts_of_linkOf rfl
  · exact sendCommandOp_puts .rx [b] s

theorem execReceiveBlock_puts (b : Byte) (t : Nat) (skip : Bool) (s : State) :
    Answers (HostPuts s) (execReceiveBlock b t skip s) := by
  unfold execReceiveBlock; split
  · exact receiveBlockOp_puts b t skip s
  · exact hostPuts_of_linkOf rfl

/-! ## Segmentation (R131, R133) -/

theorem packetSentOp_linkOf (p : Bytes) (b delay : Nat) (s : State) : linkOf (packetSentOp p b delay s) = linkOf s := by
  unfold packetSentOp; split
  · dsimp only; split <;> rfl
  · rfl

theorem blockReceivedOp_linkOf (b tInter : Nat) (s : State) : linkOf (blockReceivedOp b tInter s) = linkOf s := by
  unfold blockReceivedOp; split
  · dsimp only; repeat' split
    all_goals rfl
  · rfl

/-! ## The framer (R191, R202) -/

theorem kissByte_linkOf (b : Byte) (s : State) : linkOf (kissByte b s) = linkOf s := by rw [kissByte_frame]; rfl

theorem kissBytes_linkOf (bs : Bytes) (s : State) : linkOf (kissBytes bs s) = linkOf s := by
  induction bs generalizing s with
  | nil => rfl
  | cons b bs ih => exact (ih _).trans (kissByte_linkOf b s)

theorem kissFrame_linkOf (f : Bytes) (s : State) : linkOf (kissFrame f s) = linkOf s := by rw [kissFrame_frame]; rfl

theorem kissLoop_linkOf (fuel : Nat) (buf : Bytes) (s : State) : linkOf (kissLoop fuel buf s) = linkOf s := by
  induction fuel generalizing buf s with
  | zero => rfl
  | succ fuel ih =>
    unfold kissLoop; split
    · rfl
    · exact (ih _ _).trans (kissFrame_linkOf _ s)

theorem kissRun_linkOf (buf : Bytes) (s : State) : linkOf (kissRun buf s) = linkOf s := by
  have hresync (u : State) : linkOf (resync buf u) = linkOf u := by unfold resync; split <;> rfl
  exact (kissLoop_linkOf _ _ _).trans (hresync { s with host.kiss.rem := [] })

/-! ## The scheduler (R220 to R231): it leaves its sending to the operations it calls -/

theorem clearStateOp_linkOf (side : Side) (s : State) : linkOf (clearStateOp side s) = linkOf s := by cases side <;> rfl

theorem flushROp_linkOf (s : State) : linkOf (flushROp s) = linkOf s := by
  unfold flushROp; dsimp only; split <;> rfl

theorem flushTEndOp_linkOf (s : State) : linkOf (flushTEndOp s) = linkOf s := by
  unfold flushTEndOp; dsimp only; split <;> rfl

theorem flushTProcessOp_linkOf (s : State) : linkOf (flushTProcessOp s) = linkOf s := by
  unfold flushTProcessOp; dsimp only; split
  · exact (flushTEndOp_linkOf _).trans (kissRun_linkOf _ s)
  · exact kissRun_linkOf _ s

theorem flushTSentOp_linkOf (s : State) : linkOf (flushTSentOp s) = linkOf s := by
  unfold flushTSentOp; split
  · rfl
  · rfl
  · exact flushTEndOp_linkOf s

theorem flushTOp_linkOf (s : State) : linkOf (flushTOp s) = linkOf s := by
  unfold flushTOp; split
  · rfl
  · exact flushTProcessOp_linkOf s

theorem step1DoneOp_linkOf (s : State) : linkOf (step1DoneOp s) = linkOf s := by
  unfold step1DoneOp; dsimp only; split
  · split
    · rfl
    · split <;> rfl
  all_goals rfl

theorem loopTailOp_linkOf (s : State) : linkOf (loopTailOp s) = linkOf s := by
  unfold loopTailOp; split <;> rfl

theorem execStep1_linkOf (s : State) : Answers (fun t => linkOf t = linkOf s) (execStep1 s) := by
  unfold execStep1; dsimp only; split <;> rfl

theorem execStep2_linkOf (s : State) : Answers (fun t => linkOf t = linkOf s) (execStep2 s) := by
  unfold execStep2; dsimp only; split <;> rfl

theorem execStep3_linkOf (s : State) : Answers (fun t => linkOf t = linkOf s) (execStep3 s) :=
  linkOf_ite (flushROp_linkOf (atStep 3 s)) _

theorem execStep4_linkOf (s : State) : Answers (fun t => linkOf t = linkOf s) (execStep4 s) :=
  linkOf_ite (flushTOp_linkOf (atStep 4 s)) _

/-- The two flushes of `STEP5` follow one another (R225, R233). -/
theorem execStep5_linkOf (s : State) : Answers (fun t => linkOf t = linkOf s) (execStep5 s) := by
  unfold execStep5; dsimp only; split
  · exact (linkOf_ite (flushTOp_linkOf _) _).trans (linkOf_ite (flushROp_linkOf (atStep 5 s)) _)
  · rfl

/-! ## Every operation and every task of the host -/

/-- An operation of the host half but a read: it answers, and puts a command block or nothing (R20, R100). -/
theorem exec_hostPuts {i : Instr} (hop : hostOp i = true) (hm : movesLink i = false) (s : State) :
    Answers (HostPuts s) (exec i s) := by
  have hkeep {o : Out} (h : Answers (fun t => linkOf t = linkOf s) o) : Answers (HostPuts s) o :=
    h.mono fun _ => hostPuts_of_linkOf
  cases i with
  | readBlock => cases hm
  | sendCommand c p => exact sendCommandOp_puts c p s
  | hostInit => exact sendCommandOp_puts .init _ s
  | sendPacket p b delay => exact execSendPacket_puts p b delay s
  | sendBlock cd chunk => exact execSendBlock_puts cd chunk s
  | receiveBlock b t skip => exact execReceiveBlock_puts b t skip s
  | armRx => exact sendCommandOp_puts .rx _ s
  | cancelRx => exact sendCommandOp_puts .rxCancel [] s
  | blockReserved dir ty p =>
    cases dir with
    | h2d => cases hop
    | d2h => exact hkeep (hostAnswer_linkOf ty p s)
  | initEcho | txAck | rxAck | rxCancelEcho | radioStatusReply | echoTestReply | txKo | rxKo =>
    exact hkeep (hostAnswer_linkOf _ _ s)
  | fesc => exact hkeep (kissBytes_linkOf [FESC] s)
  | tfend => exact hkeep (kissBytes_linkOf [TFEND] s)
  | tfesc => exact hkeep (kissBytes_linkOf [TFESC] s)
  | kissTxdelay _ v | kissPersist _ v | kissSlottime _ v | kissTxtail _ v => cases v <;> exact hostPuts_of_linkOf rfl
  | unescape frame => exact hkeep (kissBytes_linkOf frame (kissStart s))
  | kissProcess buf => exact hkeep (kissRun_linkOf buf s)
  | receivePacket b tFirst tInter armed => unfold exec execReceivePacket; dsimp only; split <;> exact hostPuts_of_linkOf rfl
  | step1 => exact hkeep (execStep1_linkOf s)
  | step2 => exact hkeep (execStep2_linkOf s)
  | step3 => exact hkeep (execStep3_linkOf s)
  | step4 => exact hkeep (execStep4_linkOf s)
  | step5 => exact hkeep (execStep5_linkOf s)
  | clearState side => exact hkeep (clearStateOp_linkOf side s)
  | flushR => exact hkeep (flushROp_linkOf s)
  | flushT => exact hkeep (flushTOp_linkOf s)
  | fend | kissData | kissAbort | kissUnlisted | tokenize | escape | interpretCommand | schedStart | schedLoop | elapsed =>
    exact hostPuts_of_linkOf rfl
  | _ => cases hop

/-- An operation of the host half, a read included. -/
theorem exec_hostLink {i : Instr} (hop : hostOp i = true) (s : State) :
    Answers (LinkEffect (some i) (callReader s.host.trh i) True s) (exec i s) := by
  cases hm : movesLink i with
  | false => exact (exec_hostPuts hop hm s).mono fun _ ht => ht.call hm id _
  | true =>
    cases i with
    | readBlock n =>
      exact pollOp_linkEffect (by simp) (by simp)
        { s with host.trh := { s.host.trh with acc := [], expv := false, budget := n } } True
    | devRecv | devSend => cases hop
    | _ => cases hm

/-- A task of the host but a poll. -/
theorem runTask_puts {task : Task} (hpoll : task ≠ .poll) (s : State) : Answers (HostPuts s) (runTask task s) := by
  cases task with
  | poll => exact absurd rfl hpoll
  | call | awaitInit | awaitTx | awaitRx | awaitCancel | awaitReply | pollSleep | sleep => exact hostPuts_of_linkOf rfl
  | initAttempt => exact sendCommandOp_puts .init _ s
  | exchange c p => exact exchangeOp_puts c p s
  | packetBlock p b delay => exact packetBlockOp_puts p b delay s
  | packetSent p b delay => exact hostPuts_of_linkOf (packetSentOp_linkOf p b delay s)
  | blockReceived b tInter => exact hostPuts_of_linkOf (blockReceivedOp_linkOf b tInter s)
  | step1Done => exact hostPuts_of_linkOf (step1DoneOp_linkOf s)
  | flushTProcess => exact hostPuts_of_linkOf (flushTProcessOp_linkOf s)
  | flushTSent => exact hostPuts_of_linkOf (flushTSentOp_linkOf s)
  | flushTEnd => exact hostPuts_of_linkOf (flushTEndOp_linkOf s)
  | loopTail => exact hostPuts_of_linkOf (loopTailOp_linkOf s)

end Sys2Proof.Machine
end

section
/-! SUPPORT. What the operations of the device half do to the link, and the only fault they can end in: a write that does not fit the TX
FIFO (R63). -/

namespace Sys2Proof.Machine

/-! ## The writes to the TX FIFO and the reads of the RX FIFO (R63) -/

/-- The input makes the streamer write more than the TX FIFO has room for: the first load of a transmission (R151) or a refill
(R153). -/
def TxOverfills (ev : Event) (s : State) : Prop :=
  match ev with
  | .txStart p => s.dev.str.mode = .idle ∧ ¬fitsTxFifo (txHead p s) s
  | .thrFall => s.dev.str.mode = .txStreaming ∧ ¬fitsTxFifo (txNext s) s
  | _ => False

/-- A fault is the overfill of R63, and `P` holds of it. -/
def OverfillIf (P : Prop) (f : Fault) : Prop := f = .fifoOverfill ∧ P

theorem OverfillIf.mono {P Q : Prop} {f : Fault} (h : OverfillIf P f) (hpq : P → Q) : OverfillIf Q f := h.imp_right hpq

theorem txSetup_overfill (p : Bytes) (s : State) :
    Yields (fun _ => True) (OverfillIf (¬fitsTxFifo (txHead p s) s)) (txSetup p s) := by
  by_cases hf : fitsTxFifo (txHead p s) s
  · rw [txSetup_of_fits p s hf]; trivial
  · rw [txSetup_of_not_fits p s hf]; exact ⟨rfl, hf⟩

theorem refill_overfill (s : State) : Yields (fun _ => True) (OverfillIf (¬fitsTxFifo (txNext s) s)) (refill s) := by
  by_cases hf : fitsTxFifo (txNext s) s
  · rw [refill_of_fits s hf]; trivial
  · rw [refill_of_not_fits s hf]; exact ⟨rfl, hf⟩

/-- A drain takes no more than `FifoCount(RXFIFO)` (R156). -/
theorem drain_answers (s : State) : Answers (fun _ => True) (drain s) := by
  rw [drain_next s _ rfl]; trivial

/-- Nor does the end of a reception (R158). -/
theorem rxEnd_answers (s : State) : Answers (fun _ => True) (rxEnd s) := by
  cases ho : s.radio.rxOvf with
  | true => rw [rxEnd_of_overflow s ho]; trivial
  | false => rw [rxEnd_of_no_overflow s _ ho rfl]; trivial

/-- The cells of R150's table: only the two that write the TX FIFO can fault, and only by overfilling it. -/
theorem strStepOp_overfill (ev : Event) (s : State) :
    Yields (fun _ => True) (OverfillIf (TxOverfills ev s)) (strStepOp ev s) := by
  unfold strStepOp
  cases ev with
  | txStart p =>
    cases hm : s.dev.str.mode with
    | idle => exact (txSetup_overfill p s).mono (fun _ => id) fun _ hf => hf.mono fun hn => ⟨hm, hn⟩
    | txStreaming | rxStreaming => trivial
  | rxStart | pktRise => cases s.dev.str.mode <;> trivial
  | pktFall =>
    cases s.dev.str.mode with
    | idle | txStreaming => trivial
    | rxStreaming =>
      dsimp only; split
      · exact (rxEnd_answers s).yields _
      · trivial
  | thrRise =>
    cases s.dev.str.mode with
    | idle | txStreaming => trivial
    | rxStreaming =>
      dsimp only; split
      · exact (drain_answers s).yields _
      · trivial
  | thrFall =>
    cases hm : s.dev.str.mode with
    | idle | rxStreaming => trivial
    | txStreaming =>
      dsimp only; split
      · exact (refill_overfill s).mono (fun _ => id) fun _ hf => hf.mono fun hn => ⟨hm, hn⟩
      · trivial
  | cancel => trivial

/-! ## Operations that leave the link alone (R20, R104) -/

/-- The link is as it was, and a fault is an overfill that comes only if `P`. -/
def LeavesLink (P : Prop) (s : State) (o : Out) : Prop := Yields (fun t => linkOf t = linkOf s) (OverfillIf P) o

theorem LeavesLink.mono {P Q : Prop} {s : State} {o : Out} (h : LeavesLink P s o) (hpq : P → Q) : LeavesLink Q s o :=
  Yields.mono h (fun _ => id) fun _ hf => hf.mono hpq

/-- The streamer is not the link's agent (R150). -/
theorem SameElsewhere.linkOf_eq {s t : State} (h : SameElsewhere s t) : linkOf t = linkOf s := by
  obtain ⟨_, _, _, hH2D, hD2H, _⟩ := h
  rw [linkOf, hH2D, hD2H]; rfl

theorem strStepOp_leavesLink (ev : Event) (s : State) : LeavesLink (TxOverfills ev s) s (strStepOp ev s) := by
  cases h : strStepOp ev s with
  | next t => exact (strStepOp_elsewhere h).linkOf_eq
  | fault f => exact (strStepOp_overfill ev s).of_fault h
  | refused r => exact strStepOp_ne_refused ev s r h

theorem reportTxError_linkOf (st : Byte) (s : State) : linkOf (reportTxError st s) = linkOf s :=
  (composeStatusOp_elsewhere .txKo st (strobeFlushTx s)).linkOf_eq.trans (by simp [linkOf])

theorem reportRxOverflow_linkOf (s : State) : linkOf (reportRxOverflow s) = linkOf s :=
  (composeStatusOp_elsewhere .rxKo stCodeOverflow (strobeFlushRx s)).linkOf_eq.trans (by simp [linkOf])

/-- A handler overfills the FIFO only with the event of its line, when it is enabled (R294). -/
theorem takeInterrupt_leavesLink (x : Line) (s : State) :
    LeavesLink (isrEnabled x s = true ∧ TxOverfills (interruptEvent x s) s) s (takeInterrupt x strStepOp s) := by
  unfold takeInterrupt; split
  next he =>
    have hstep : LeavesLink (TxOverfills (interruptEvent x s) s) s (strStepOp (interruptEvent x s) (interruptEntry s)) :=
      strStepOp_leavesLink (interruptEvent x s) (interruptEntry s)
    exact Yields.andThen (hstep.mono fun hov => ⟨he, hov⟩) fun u hu => hu
  next => rfl

/-- A dispatched command overfills the FIFO only by starting a transmission (R104, R106). -/
theorem commandDispatch_leavesLink (code : Byte) (p : Bytes) (s : State) :
    LeavesLink (TxOverfills (.txStart p) s) s (commandDispatch code p s) := by
  unfold commandDispatch; split
  next => unfold execInit; split <;> rfl
  next =>
    unfold execTx; split
    · rfl
    · exact strStepOp_leavesLink (.txStart p) s
  next =>
    unfold execRx; split
    · rfl
    · exact (strStepOp_leavesLink (.rxStart (p.headD 0)) s).mono False.elim
  next => exact Yields.andThen ((strStepOp_leavesLink .cancel s).mono False.elim) fun _ hu => hu
  all_goals rfl

/-! ## The two operations of the main loop (R103, R112) -/

/-- All `DEV_RECV` does to the link: it takes one byte, if one is available. It overfills the FIFO only by a TX command. -/
theorem execDevRecv_linkOf (s : State) :
    Yields (fun t => linkOf t = ({ s.lH2D with avail := s.lH2D.avail.drop 1 }, s.lD2H))
      (OverfillIf (∃ p, TxOverfills (.txStart p) s)) (execDevRecv s) := by
  cases ha : s.lH2D.avail with
  | nil =>
    have hnone : execDevRecv s = .next s := by simp [execDevRecv, ha]
    rw [hnone, List.drop_nil, ← ha]; rfl
  | cons b rest =>
    cases hc : (trdPush s.dev.trd b).complete with
    | true =>
      have hdispatch := commandDispatch_leavesLink ((trdPush s.dev.trd b).acc.headD 0) ((trdPush s.dev.trd b).acc.drop 2)
        { s with dev.trd := trdPush s.dev.trd b, lH2D.avail := rest, dev.gie := false }
      have hbracket := (hdispatch.mono fun hov => (⟨_, hov⟩ : ∃ p, TxOverfills (.txStart p) s)).andThen
        (Q := fun t => linkOf t = ({ s.lH2D with avail := rest }, s.lD2H)) (k := fun u => .next { u with dev.gie := true })
        fun _ hu => hu
      rw [execDevRecv_complete ha hc]
      exact hbracket.andThen fun _ hu => hu
    | false => rw [execDevRecv_incomplete ha hc]; rfl

/-- All `DEV_SEND` does to the link: it puts the block at the head of `OUTQ`, if there is one. -/
theorem execDevSend_linkOf (s : State) :
    Answers (fun t => linkOf t = (s.lH2D, { s.lD2H with flight := s.lD2H.flight ++ s.dev.outq.headD [] })) (execDevSend s) := by
  cases hq : s.dev.outq with
  | nil =>
    have hnone : execDevSend s = .next s := by simp [execDevSend, hq]
    rw [hnone, List.headD_nil, List.append_nil]; rfl
  | cons b rest => simp only [execDevSend, hq]; rfl

/-! ## Every instruction -/

/-- An operation of the device half but those two. -/
theorem exec_leavesLink {i : Instr} (hop : hostOp i = false) (hm : movesLink i = false) (s : State) :
    LeavesLink True s (exec i s) := by
  have hev (ev : Event) : LeavesLink True s (strStepOp ev s) := (strStepOp_leavesLink ev s).mono fun _ => trivial
  have hcmd (code : Byte) (p : Bytes) : LeavesLink True s (commandDispatch code p s) :=
    (commandDispatch_leavesLink code p s).mono fun _ => trivial
  have hisr (x : Line) : LeavesLink True s (takeInterrupt x strStepOp s) :=
    (takeInterrupt_leavesLink x s).mono fun _ => trivial
  cases i with
  | devRecv | devSend => cases hm
  | init p => exact hcmd 0x01 p
  | tx p => exact hcmd 0x02 p
  | rx p => exact hcmd 0x03 p
  | rxCancel p => exact hcmd 0x04 p
  | devDispatch code p => exact hcmd code p
  | evPktRise => exact hev .pktRise
  | evPktFall => exact hev .pktFall
  | evThrRise => exact hev .thrRise
  | evThrFall => exact hev .thrFall
  | evCancel => exact hev .cancel
  | evTxStart p => exact hev (.txStart p)
  | evRxStart rxlen => exact hev (.rxStart rxlen)
  | strStep ev => exact hev ev
  | isrPkt => exact hisr .pkt
  | isrThr => exact hisr .thr
  | stTxUnderflow | stTxNotEmpty => exact reportTxError_linkOf _ s
  | stRxOverflow => exact reportRxOverflow_linkOf s
  | blockReserved dir ty p =>
    cases dir with
    | h2d => rfl
    | d2h => cases hop
  | radioStatus | echoTest | stOk | stopLines | composeStatus | composeData => rfl
  | _ => cases hop

/-- An operation of the device half puts no command block, and a fault of it is an overfill (R20, R63). -/
theorem exec_devLink {i : Instr} (hop : hostOp i = false) (s : State) :
    Yields (LinkEffect (some i) (callReader s.host.trh i) False s) (OverfillIf True) (exec i s) := by
  cases hm : movesLink i with
  | false =>
    exact Yields.mono (exec_leavesLink hop hm s) (fun _ ht => (linkEffect_none_of_linkOf ht False).call hm id _) fun _ => id
  | true =>
    cases i with
    | devRecv =>
      refine (execDevRecv_linkOf s).mono (fun t ht => ?_) fun _ hf => hf.mono fun _ => trivial
      obtain ⟨hH2D, hD2H⟩ := Prod.mk.inj ht
      simp [LinkEffect, callReader, hH2D, hD2H]
    | devSend =>
      refine Yields.mono ((execDevSend_linkOf s).yields _) (fun t ht => ?_) fun _ => id
      obtain ⟨hH2D, hD2H⟩ := Prod.mk.inj ht
      simp [LinkEffect, callReader, hH2D, hD2H]
    | readBlock => cases hop
    | _ => cases hm

/-- Every instruction: only one of the host half puts a command block, and only one of the device half can fault. -/
theorem exec_link (i : Instr) (s : State) :
    Yields (LinkEffect (some i) (callReader s.host.trh i) (hostOp i = true) s) (OverfillIf (hostOp i = false)) (exec i s) := by
  cases hop : hostOp i with
  | true => exact ((exec_hostLink hop s).yields _).mono (fun _ ht => ht.mono fun _ => rfl) fun _ => id
  | false => exact (exec_devLink hop s).mono (fun _ ht => ht.mono False.elim) fun _ hf => hf.mono fun _ => rfl

/-- A call whose operands may be out of range (log entry 14). -/
theorem execChecked_link (i : Instr) (s : State) :
    Yields (LinkEffect (some i) (callReader s.host.trh i) (hostOp i = true) s) (OverfillIf (hostOp i = false))
      (execChecked i s) := by
  cases hwf : i.wf with
  | true => simpa only [execChecked, hwf, if_true] using exec_link i s
  | false =>
    have hlink : linkOf (if hostOp i then setRes (.fail .refused []) s else ignoreCommand s) = linkOf s := by
      split <;> rfl
    simp only [execChecked, hwf]
    exact (linkEffect_none_of_linkOf hlink _).call (movesLink_of_not_wf hwf) id _

end Sys2Proof.Machine
end

section
/-! SUPPORT. What every turn does to the link, and that no turn of a good state overfills the TX FIFO (R63, R12). -/

namespace Sys2Proof.Machine

/-! ## The link, turn by turn (R56) -/

theorem turnReader_of_call {τ : Turn} {s : State} {i : Instr} (h : turnCall τ s = some i) :
    turnReader τ s = callReader s.host.trh i := by
  unfold turnReader; rw [h]
  cases i <;> rfl

/-- The turns that may put a command block: the host's, and a harness's call of an operation of the host half. -/
def MayCommand (τ : Turn) : Prop := τ = .host ∨ ∃ i, τ = .direct i ∧ hostOp i = true

/-- The effect of a turn on the link, as `leftH2D`, `leftD2H` and `putsD2H` read it off the turn's call and reader. -/
def TurnEffect (τ : Turn) (s t : State) : Prop := LinkEffect (turnCall τ s) (turnReader τ s) (MayCommand τ) s t

/-- A turn that calls an instruction has its effect. -/
theorem turnEffect_of_call {τ : Turn} {s t : State} {i : Instr} (hcall : turnCall τ s = some i)
    (hsends : hostOp i = true → MayCommand τ) (h : LinkEffect (some i) (callReader s.host.trh i) (hostOp i = true) s t) :
    TurnEffect τ s t := by
  unfold TurnEffect
  rw [turnReader_of_call hcall, hcall]
  exact h.mono hsends

/-- A task that is not a call calls no instruction; it polls only when it is a poll (R101). -/
theorem turnCall_host_of_task {s : State} {task : Task} {k : List Task} (hctl : s.host.ctl = task :: k)
    (hcall : ∀ i, task ≠ .call i) : turnCall .host s = none := by
  unfold turnCall; rw [hctl]
  cases task with
  | call i => exact absurd rfl (hcall i)
  | _ => rfl

theorem turnReader_host_of_poll {s : State} {k : List Task} (hctl : s.host.ctl = .poll :: k) :
    turnReader .host s = some s.host.trh := by
  unfold turnReader; rw [turnCall_host_of_task hctl nofun, hctl]

theorem turnReader_host_of_task {s : State} {task : Task} {k : List Task} (hctl : s.host.ctl = task :: k)
    (hcall : ∀ i, task ≠ .call i) (hpoll : task ≠ .poll) : turnReader .host s = none := by
  unfold turnReader; rw [turnCall_host_of_task hctl hcall, hctl]
  cases task with
  | poll => exact absurd rfl hpoll
  | _ => rfl

/-- The host's turn. It can fault only by a call of an operation of the device half. -/
theorem hostStep_link (s : State) :
    Yields (TurnEffect .host s) (OverfillIf (∃ i k, s.host.ctl = .call i :: k ∧ hostOp i = false)) (hostStep s) := by
  have hmay : MayCommand .host := .inl rfl
  unfold hostStep; split
  next hctl =>
    have hcall : turnCall .host s = none := by simp [turnCall, hctl]
    have hread : turnReader .host s = none := by simp [turnReader, hcall, hctl]
    unfold Yields TurnEffect
    rw [hcall, hread]; exact linkEffect_none_of_linkOf rfl _
  next i k hctl =>
    have hcall : turnCall .host s = some i := by simp [turnCall, hctl]
    exact (execChecked_link i (setCtl k s)).mono (fun _ ht => turnEffect_of_call hcall (fun _ => hmay) ht)
      fun _ hf => hf.mono fun hop => ⟨i, k, hctl, hop⟩
  next task k hne hctl =>
    have heffect (t : State) (h : LinkEffect none (turnReader .host s) True s t) : TurnEffect .host s t := by
      unfold TurnEffect
      rw [turnCall_host_of_task hctl hne]; exact h.mono fun _ => hmay
    by_cases hpoll : task = .poll
    · subst hpoll
      rw [turnReader_host_of_poll hctl] at heffect
      exact ((pollOp_linkEffect (by simp) (by simp) (setCtl k s) True).mono heffect).yields _
    · rw [turnReader_host_of_task hctl hne hpoll] at heffect
      exact ((runTask_puts hpoll (setCtl k s)).mono heffect).yields _

/-! The radio and the air have no part in the link (R301, R302). -/

theorem radioTxStep_linkOf (s : State) : linkOf (radioTxStep s) = linkOf s := by
  unfold radioTxStep; split
  · simp [linkOf]
  · split
    · split <;> simp [linkOf]
    · simp [linkOf]

theorem radioRxStep_linkOf (s : State) : linkOf (radioRxStep s) = linkOf s := by
  unfold radioRxStep; split
  · split <;> simp [linkOf]
  · simp [linkOf]

theorem radioStep_linkOf (s : State) : linkOf (radioStep s) = linkOf s := by
  unfold radioStep; split
  · rfl
  · exact radioTxStep_linkOf s
  · split
    · exact radioRxStep_linkOf s
    · rfl

theorem airPacket_linkOf (air : Bytes) (rssi crclqi : Byte) (s : State) : linkOf (airPacket air rssi crclqi s) = linkOf s := by
  unfold airPacket; split
  · simp [linkOf]
  · rfl

/-- The turns of the link's own agent. -/
def linkTurn : Turn → Bool
  | .linkH2D _ => true
  | .linkD2H _ => true
  | _ => false

/-- Every turn but the link's own and the starts has the effect its call and its reader say; a fault is an overfill. -/
theorem runTurn_link (τ : Turn) (s : State) :
    Yields (fun t => startTurn τ = false → linkTurn τ = false → TurnEffect τ s t) (OverfillIf True) (runTurn τ s) := by
  have hkeep {t : State} (hcall : turnCall τ s = none) (hread : turnReader τ s = none) (h : linkOf t = linkOf s) :
      startTurn τ = false → linkTurn τ = false → TurnEffect τ s t := by
    unfold TurnEffect; rw [hcall, hread]; exact fun _ _ => linkEffect_none_of_linkOf h _
  cases τ with
  | host => exact (hostStep_link s).mono (fun _ ht _ _ => ht) fun _ hf => hf.mono fun _ => trivial
  | devRecv =>
    exact (exec_link .devRecv s).mono (fun _ ht _ _ => turnEffect_of_call rfl nofun ht) fun _ hf => hf.mono fun _ => trivial
  | devSend =>
    exact (exec_link .devSend s).mono (fun _ ht _ _ => turnEffect_of_call rfl nofun ht) fun _ hf => hf.mono fun _ => trivial
  | isrPkt | isrThr =>
    unfold runTurn; dsimp only; split
    · exact Yields.mono (exec_leavesLink rfl rfl s) (fun _ => hkeep rfl rfl) fun _ => id
    · exact hkeep rfl rfl rfl
  | radio => exact hkeep rfl rfl (radioStep_linkOf s)
  | air air rssi crclqi => exact hkeep rfl rfl (airPacket_linkOf air rssi crclqi s)
  | airLen a => unfold runTurn chooseAirLen; dsimp only [Yields]; split <;> exact hkeep rfl rfl rfl
  | direct i =>
    exact (execChecked_link i s).mono (fun _ ht _ _ => turnEffect_of_call rfl (fun hop => .inr ⟨i, rfl, hop⟩) ht)
      fun _ hf => hf.mono fun _ => trivial
  | exchange c p => unfold runTurn askExchange; dsimp only [Yields]; split <;> exact hkeep rfl rfl rfl
  | termPut | termTake | tick => exact hkeep rfl rfl rfl
  | linkH2D | linkD2H => exact fun _ => nofun
  | devPowerUp | hostStart => exact nofun

theorem leftD2H_eq (τ : Turn) (s : State) :
    leftD2H τ s = ((turnReader τ s).map fun reader => (pollBytes reader s.lD2H.avail).2).getD s.lD2H.avail := by
  unfold leftD2H; cases turnReader τ s <;> rfl

/-- What is on a channel is not lost or reordered by delivery (R56). -/
theorem chanDeliver_content (c : Chan) (k : Nat) :
    (chanDeliver c k).avail ++ (chanDeliver c k).flight = c.avail ++ c.flight := by simp [chanDeliver]

/-- A step that answers a next state is the run of its turn. -/
theorem runTurn_of_step {s t u : State} {τ : Turn} (h : nextTurn s = (some τ, u)) (hstep : step s = .next t) :
    runTurn τ u = .next t := by
  cases hc : configOk s with
  | true => rwa [step_of_config hc, agentStep_of_turn h] at hstep
  | false => rw [step_of_bad_config hc] at hstep; cases hstep

/-! ## No overfill in a good state (R63, R12) -/

/-- A step that faults is the run of its turn, in a good configuration. -/
theorem step_fault {s : State} {f : Fault} (h : step s = .fault f) :
    configOk s = true ∧ ∃ τ u, nextTurn s = (some τ, u) ∧ runTurn τ u = .fault f := by
  cases hc : configOk s with
  | false => rw [step_of_bad_config hc] at h; cases h
  | true =>
    rw [step_of_config hc, agentStep] at h
    split at h
    next τ u hturn => exact ⟨rfl, τ, u, hturn, h⟩
    next => cases h

/-- The first load of a transmission finds the TX FIFO empty, and leaves one byte of it free (R151). -/
theorem StreamInv.txStart_fits {s : State} (h : StreamInv s) (p : Bytes) : ¬TxOverfills (.txStart p) s := by
  rintro ⟨hm, hfull⟩
  have hempty : s.radio.txFifo = [] := h.txFifo_nil (by simp [hm])
  exact hfull (by simp [fitsTxFifo, txHead, hempty])

/-- A pending refill finds the TX FIFO below its threshold, and `TX_CHUNK` bytes fit above it (R12, R153). -/
theorem StreamInv.refill_fits {s : State} (h : StreamInv s) (hc : configOk s = true) (hies : iesOf .thr s = true)
    (hifg : ifgOf .thr s = true) : ¬TxOverfills .thrFall s := by
  rintro ⟨hm, hfull⟩
  obtain ⟨_, _, _, _, hroom, _⟩ := h
  obtain ⟨_, hsize, hthr, hthrMax, _, hchunk, _⟩ := (configOk_iff s).mp hc
  have hlow : s.radio.txFifo.length < s.par.txThr := hroom hm hies hifg
  have hlen : (txNext s).length ≤ s.par.txChunk := by simp [txNext]
  refine hfull ?_
  unfold fitsTxFifo
  omega

/-- An enabled handler does not overfill the TX FIFO (R294). -/
theorem StreamInv.interrupt_fits {s : State} (h : StreamInv s) (hc : configOk s = true) {x : Line} (he : isrEnabled x s = true) :
    ¬TxOverfills (interruptEvent x s) s := by
  have hifg : ifgOf x s = true := by
    simp only [isrEnabled, requested, Bool.and_eq_true] at he; exact he.2.1
  unfold interruptEvent; split
  next => exact id
  next => exact id
  next => exact id
  next hies => exact h.refill_fits hc hies hifg

/-- No turn of a good state faults, a harness's direct calls apart. -/
theorem runTurn_ne_fault {τ : Turn} {s : State} (hdirect : ∀ i, τ ≠ .direct i) (h : BothInv s) (hc : configOk s = true)
    (f : Fault) : runTurn τ s ≠ .fault f := by
  obtain ⟨⟨_, _, hctl⟩, hstream, _⟩ := h
  intro hrun
  cases τ with
  | host =>
    obtain ⟨_, i, k, hcall, hop⟩ := (hostStep_link s).of_fault hrun
    rw [hcall] at hctl
    simp [Task.ok, hop] at hctl
  | devRecv =>
    obtain ⟨_, p, hover⟩ := (execDevRecv_linkOf s).of_fault hrun
    exact hstream.txStart_fits p hover
  | devSend => exact (execDevSend_linkOf s).ne_fault f hrun
  | isrPkt | isrThr =>
    unfold runTurn at hrun; dsimp only at hrun; split at hrun
    · obtain ⟨_, he, hover⟩ := (takeInterrupt_leavesLink _ s).of_fault hrun
      exact hstream.interrupt_fits hc he hover
    · cases hrun
  | direct i => exact hdirect i rfl
  | _ => cases hrun

/-- The prompt schedule makes no direct call (log entry 8). -/
theorem nextTurn_ne_direct {s u : State} {τ : Turn} (h : directNext s = false) (hturn : nextTurn s = (some τ, u)) (i : Instr) :
    τ ≠ .direct i := by
  rintro rfl
  unfold nextTurn at hturn
  split at hturn
  next =>
    have hprompt : promptTurn s = some (.direct i) := (Prod.mk.inj hturn).1
    unfold promptTurn at hprompt
    repeat' split at hprompt
    all_goals cases hprompt
  next ha =>
    obtain ⟨⟨rfl⟩, _⟩ := Prod.mk.inj hturn
    simp [directNext, ha] at h

end Sys2Proof.Machine
end

section
/-! The memories of `20_memory.md`: the FIFOs of the radio (R63) and the channels of the link (R56). -/

namespace Sys2Proof.Machine

/-- Settles O51: a fault can only be an overfill of the TX FIFO, by the first load of a transmission or by a refill (`runTurn_link`), and
in a good state both fit (`runTurn_ne_fault`). -/
theorem noStepFaults : Obligations.NoStepFaults := by
  unfold Obligations.NoStepFaults
  refine ⟨fun s f hinv hnext hstep => ?good, fun s hstep => ?underread⟩
  case good =>
    obtain ⟨hc, τ, u, hturn, hrun⟩ := step_fault hstep
    have hu := nextTurn_rest hturn
    have hboth : BothInv u := by rw [hu]; exact hinv.bothInv (lineParams_of_config hc)
    have hcu : configOk u = true := by rw [hu]; exact hc
    exact runTurn_ne_fault (nextTurn_ne_direct hnext hturn) hboth hcu f hrun
  case underread =>
    obtain ⟨_, τ, u, _, hrun⟩ := step_fault hstep
    obtain ⟨hover, _⟩ := (runTurn_link τ u).of_fault hrun
    cases hover

/-- Settles O56: the link's own turns by the delivery of a channel (`chanDeliver_content`), the others by what their call and their
reader do to the link (`runTurn_link`). -/
theorem linkDeliversInOrder : Obligations.LinkDeliversInOrder := by
  unfold Obligations.LinkDeliversInOrder
  intro s t u τ hturn hstep hstart
  have hrun : runTurn τ u = .next t := runTurn_of_step hturn hstep
  cases hlink : linkTurn τ with
  | false =>
    obtain ⟨havailH, hputs, havailD, hflightD⟩ := (runTurn_link τ u).of_next hrun hstart hlink
    rw [← leftD2H_eq] at havailD
    have hH2D (k : Nat) : τ ≠ .linkH2D k := by rintro rfl; cases hlink
    have hD2H (k : Nat) : τ ≠ .linkD2H k := by rintro rfl; cases hlink
    exact ⟨fun k h => absurd h (hH2D k), fun k h => absurd h (hD2H k), fun _ => ⟨havailH, hputs⟩, fun _ => ⟨havailD, hflightD⟩⟩
  | true =>
    have hnil (b : Bytes) : b = b ++ [] := (List.append_nil b).symm
    cases τ with
    | linkH2D k =>
      cases hrun
      refine ⟨?_, nofun, fun h => absurd rfl (h k), fun _ => ⟨rfl, hnil _⟩⟩
      rintro _ ⟨rfl⟩
      exact ⟨chanDeliver_content u.lH2D k, rfl, rfl⟩
    | linkD2H k =>
      cases hrun
      refine ⟨nofun, ?_, fun _ => ⟨rfl, [], hnil _, fun h => absurd rfl h⟩, fun h => absurd rfl (h k)⟩
      rintro _ ⟨rfl⟩
      exact ⟨chanDeliver_content u.lD2H k, rfl, rfl⟩
    | _ => cases hlink

end Sys2Proof.Machine
end

section
/-! SUPPORT. The codec of the block spaces (R70, R71, R84): the first block of a byte sequence, and the instruction its type byte stands
for in either direction of the link. -/

namespace Sys2Proof

/-- R70, R84: what splits off the front of a byte sequence is a block whose payload fits its size byte, and every such block does. -/
theorem splitBlock_eq_some {bs rest payload : Bytes} {code : Byte} :
    splitBlock bs = some (code, payload, rest) ↔ payload.length ≤ 255 ∧ bs = blockBytes code payload ++ rest := by
  constructor
  · intro h
    match bs with
    | [] | [_] => cases h
    | c :: size :: tl =>
      simp only [splitBlock, Option.ite_none_right_eq_some, Option.some.injEq, Prod.mk.injEq] at h
      obtain ⟨hsize, rfl, rfl, rfl⟩ := h
      have hlen : (tl.take size.toNat).length = size.toNat := List.length_take_of_le hsize
      refine ⟨by omega, ?_⟩
      simp [blockBytes, hlen]
  · rintro ⟨hfit, rfl⟩
    have hsize : (BitVec.ofNat 8 payload.length).toNat = payload.length := by
      rw [BitVec.toNat_ofNat]; omega
    simp [splitBlock, blockBytes, hsize]

/-- `TYPE_CODE` is inverted (R71). -/
theorem blockTypeOf_eq_some {code : Byte} {ty : BlockType} : blockTypeOf code = some ty ↔ code = typeCode ty := by
  constructor
  · intro h
    unfold blockTypeOf at h
    repeat' split at h
    all_goals cases h
    all_goals assumption
  · rintro rfl
    cases ty <;> rfl

/-- The codes without a type are the reserved ones of R83 (a). -/
theorem reservedType_of_blockTypeOf_eq_none {code : Byte} (h : blockTypeOf code = none) (dir : Dir) :
    reservedType dir code = true := by
  have hd2h : code.toNat = 0 ∨ 9 ≤ code.toNat := by
    simp only [blockTypeOf, ite_eq_iff, reduceCtorEq, and_false, false_or, and_true] at h
    bv_omega
  cases dir <;> simp [reservedType] <;> omega

/-- The space of the blocks that travel in a direction (R71). -/
def Dir.space : Dir → Space
  | .h2d => .command
  | .d2h => .reply

theorem Dir.space_injective : Function.Injective Dir.space := by
  intro d d' h
  cases d <;> cases d' <;> simp_all [Dir.space]

theorem space_blockReserved (dir : Dir) (ty : Byte) (payload : Bytes) :
    (Instr.blockReserved dir ty payload).space = some dir.space := by
  cases dir <;> rfl

/-- The instruction a block stands for, by its direction and its type byte: `decodeCommand` or `decodeReply`. -/
def decodeBlock : Dir → Byte → Bytes → Instr
  | .h2d => decodeCommand
  | .d2h => decodeReply

/-- Decoding in a block space: the first block is split off and read by its type byte. -/
theorem decode_block_eq_ok_iff_exists {dir : Dir} {bs rest : Bytes} {i : Instr} :
    decode dir.space bs = .ok (i, rest) ↔
      ∃ code payload, payload.length ≤ 255 ∧ bs = blockBytes code payload ++ rest ∧ decodeBlock dir code payload = i := by
  have hdecode : decode dir.space bs = .ok (i, rest) ↔
      ∃ code payload, splitBlock bs = some (code, payload, rest) ∧ decodeBlock dir code payload = i := by
    cases hsplit : splitBlock bs with
    | none => cases dir <;> simp [Dir.space, decode, hsplit]
    | some block => cases dir <;> simp [Dir.space, decode, decodeBlock, hsplit, Prod.ext_iff, and_comm]
  simp only [hdecode, splitBlock_eq_some, and_assoc]

/-- A reserved type byte decodes to the reserved row of its direction, the KO types sent by a host included (R83 (a)). -/
theorem decodeBlock_of_reservedType {dir : Dir} {code : Byte} (h : reservedType dir code = true) (payload : Bytes) :
    decodeBlock dir code payload = .blockReserved dir code payload := by
  cases hty : blockTypeOf code with
  | none => cases dir <;> simp [decodeBlock, decodeCommand, decodeReply, hty]
  | some ty =>
    obtain rfl := blockTypeOf_eq_some.mp hty
    cases dir with
    | h2d =>
      cases ty with
      | txKo | rxKo => rfl
      | _ => cases h
    | d2h => cases ty <;> cases h

/-- What a block decodes to is well formed, of the block's space, and encoded as that block. -/
theorem decodeBlock_wf_space_encode (dir : Dir) (code : Byte) {payload : Bytes} (hfit : payload.length ≤ 255) :
    (decodeBlock dir code payload).wf = true ∧ (decodeBlock dir code payload).space = some dir.space ∧
      encode (decodeBlock dir code payload) = blockBytes code payload := by
  have hp : payloadFits payload = true := decide_eq_true hfit
  by_cases hres : reservedType dir code = true
  · rw [decodeBlock_of_reservedType hres]
    exact ⟨by simp [Instr.wf, hres, hp], space_blockReserved dir code payload, rfl⟩
  · cases hty : blockTypeOf code with
    | none => exact absurd (reservedType_of_blockTypeOf_eq_none hty dir) hres
    | some ty =>
      obtain rfl := blockTypeOf_eq_some.mp hty
      cases dir <;> cases ty <;> exact ⟨hp, rfl, rfl⟩

/-- A well-formed instruction of a block space is encoded as a block that stands for it. -/
theorem exists_decodeBlock_eq {dir : Dir} {i : Instr} (hwf : i.wf = true) (hspace : i.space = some dir.space) :
    ∃ code payload, payload.length ≤ 255 ∧ encode i = blockBytes code payload ∧ decodeBlock dir code payload = i := by
  cases i with
  | init p | tx p | rx p | rxCancel p | radioStatus p | echoTest p =>
    cases dir with
    | h2d => exact ⟨_, p, of_decide_eq_true hwf, rfl, rfl⟩
    | d2h => cases hspace
  | initEcho p | txAck p | rxAck p | rxCancelEcho p | radioStatusReply p | echoTestReply p | txKo p | rxKo p =>
    cases dir with
    | h2d => cases hspace
    | d2h => exact ⟨_, p, of_decide_eq_true hwf, rfl, rfl⟩
  | blockReserved d ty p =>
    obtain rfl : d = dir := Dir.space_injective (Option.some.inj ((space_blockReserved d ty p).symm.trans hspace))
    obtain ⟨hres, hfit⟩ := (Bool.and_eq_true _ _).mp hwf
    exact ⟨ty, p, of_decide_eq_true hfit, rfl, decodeBlock_of_reservedType hres p⟩
  | _ => cases dir <;> cases hspace

/-- In a block space the byte sequences that decode to an instruction are its encoding with anything after it. -/
theorem decode_block_eq_ok {dir : Dir} {bs rest : Bytes} {i : Instr} :
    decode dir.space bs = .ok (i, rest) ↔ i.wf = true ∧ i.space = some dir.space ∧ encode i ++ rest = bs := by
  rw [decode_block_eq_ok_iff_exists]
  constructor
  · rintro ⟨code, payload, hfit, rfl, rfl⟩
    obtain ⟨hwf, hspace, hencode⟩ := decodeBlock_wf_space_encode dir code hfit
    exact ⟨hwf, hspace, by rw [hencode]⟩
  · rintro ⟨hwf, hspace, rfl⟩
    obtain ⟨code, payload, hfit, hencode, hdecode⟩ := exists_decodeBlock_eq hwf hspace
    exact ⟨code, payload, hfit, by rw [hencode], hdecode⟩

end Sys2Proof
end

section
/-! SUPPORT. The one-byte spaces (R78, R86) and the KISS frames (R79 to R81, R190 to R194). -/

namespace Sys2Proof

/-! ## Special bytes and status codes -/

/-- The special bytes decode to the instructions that are encoded as them (R78). -/
theorem decodeSpecial_eq_some {b : Byte} {i : Instr} :
    decodeSpecial b = some i ↔ i.space = some .special ∧ encode i = [b] := by
  constructor
  · intro h
    unfold decodeSpecial at h
    repeat' split at h
    all_goals cases h
    all_goals subst b; exact ⟨rfl, rfl⟩
  · rintro ⟨hspace, hbyte⟩
    cases i with
    | fend | fesc | tfend | tfesc => cases hbyte; rfl
    | blockReserved dir => cases dir <;> cases hspace
    | _ => cases hspace

/-- The status codes decode to the instructions that are encoded as them (R86). -/
theorem decodeStatus_eq_some {b : Byte} {i : Instr} :
    decodeStatus b = some i ↔ i.space = some .status ∧ encode i = [b] := by
  constructor
  · intro h
    unfold decodeStatus at h
    repeat' split at h
    all_goals cases h
    all_goals subst b; exact ⟨rfl, rfl⟩
  · rintro ⟨hspace, hbyte⟩
    cases i with
    | stOk | stTxUnderflow | stTxNotEmpty | stRxOverflow => cases hbyte; rfl
    | blockReserved dir => cases dir <;> cases hspace
    | _ => cases hspace

theorem orError_eq_ok {o : Option Instr} {e : DecodeError} {i : Instr} {rest rest' : Bytes} :
    orError o e rest = .ok (i, rest') ↔ o = some i ∧ rest = rest' := by
  cases o <;> simp [orError]

/-- A special byte or a status code has no operand to check, and is one byte. -/
theorem wf_and_encode_eq_singleton {sp : Space} (hsp : sp = .special ∨ sp = .status) {i : Instr} (h : i.space = some sp) :
    i.wf = true ∧ ∃ b, encode i = [b] := by
  cases i with
  | fend | fesc | tfend | tfesc | stOk | stTxUnderflow | stTxNotEmpty | stRxOverflow => exact ⟨rfl, _, rfl⟩
  | blockReserved dir => cases dir <;> cases h <;> simp at hsp
  | _ => cases h <;> simp at hsp

/-- Decoding in a space of one-byte codes, given the space's table of codes. -/
theorem decode_oneByte_eq_ok {sp : Space} (hsp : sp = .special ∨ sp = .status) {table : Byte → Option Instr} {e : DecodeError}
    (htable : ∀ {b i}, table b = some i ↔ i.space = some sp ∧ encode i = [b])
    (hnil : decode sp [] = .error .noByte) (hcons : ∀ b tl, decode sp (b :: tl) = orError (table b) e tl)
    {bs rest : Bytes} {i : Instr} :
    decode sp bs = .ok (i, rest) ↔ i.wf = true ∧ i.space = some sp ∧ encode i ++ rest = bs := by
  constructor
  · intro h
    cases bs with
    | nil => rw [hnil] at h; cases h
    | cons b tl =>
      rw [hcons, orError_eq_ok, htable] at h
      obtain ⟨⟨hspace, hencode⟩, rfl⟩ := h
      exact ⟨(wf_and_encode_eq_singleton hsp hspace).1, hspace, by rw [hencode]; rfl⟩
  · rintro ⟨_, hspace, rfl⟩
    obtain ⟨_, b, hencode⟩ := wf_and_encode_eq_singleton hsp hspace
    rw [hencode, List.singleton_append, hcons, orError_eq_ok, htable]
    exact ⟨⟨hspace, hencode⟩, rfl⟩

/-! ## The KISS codec (R190 to R192) -/

/-- R191, R192: reading back what a payload byte is sent as gives the byte. -/
theorem unescapeBody_escapeByte_append (b : Byte) (rest : Bytes) :
    unescapeBody (escapeByte b ++ rest) = b :: unescapeBody rest := by
  unfold escapeByte
  split
  · subst b; rfl
  · split
    · subst b; rfl
    · cases rest <;> simp [unescapeBody, *]

theorem unescapeBody_flatMap_escapeByte (p : Bytes) : unescapeBody (p.flatMap escapeByte) = p := by
  induction p with
  | nil => rfl
  | cons b p ih => rw [List.flatMap_cons, unescapeBody_escapeByte_append, ih]

/-- An escaped payload has no delimiter in it (R192). -/
theorem FEND_notMem_flatMap_escapeByte (p : Bytes) : FEND ∉ p.flatMap escapeByte := by
  have hbyte (b : Byte) : FEND ∉ escapeByte b := by
    unfold escapeByte
    split
    · decide
    · split
      · decide
      · simpa [eq_comm] using ‹¬b = FEND›
  simpa using fun b _ => hbyte b

theorem flatMap_escapeByte_ne_nil {p : Bytes} (h : p ≠ []) : p.flatMap escapeByte ≠ [] := by
  intro hnil
  have := unescapeBody_flatMap_escapeByte p
  rw [hnil] at this
  exact h this.symm

theorem bne_FEND_of_mem {body : Bytes} (h : FEND ∉ body) (b : Byte) (hb : b ∈ body) : (b != FEND) = true :=
  bne_iff_ne.mpr fun e => h (e ▸ hb)

/-- `UNESCAPE` undoes `ESCAPE` (R193). -/
theorem unescape_escape (p : Bytes) : unescape (escape p) = p := by
  have hfilter : (escape p).filter (· != FEND) = p.flatMap escapeByte := by
    have hkeep : (p.flatMap escapeByte).filter (· != FEND) = p.flatMap escapeByte :=
      List.filter_eq_self.mpr (bne_FEND_of_mem (FEND_notMem_flatMap_escapeByte p))
    simp [escape, hkeep]
  rw [unescape, hfilter, unescapeBody_flatMap_escapeByte]

/-- R190: a run of delimiters, a body without one and a closing delimiter are a token, and the rest starts with the closing one. -/
theorem tokenize_replicate_append {body : Bytes} (hne : body ≠ []) (hbody : FEND ∉ body) (n : Nat) (tl : Bytes) :
    tokenize (List.replicate (n + 1) FEND ++ body ++ FEND :: tl) = some (FEND :: (body ++ [FEND]), FEND :: tl) := by
  have hmem := bne_FEND_of_mem hbody
  have hcontent : (List.replicate (n + 1) FEND ++ body ++ FEND :: tl).dropWhile (· == FEND) = body ++ FEND :: tl := by
    obtain ⟨b, body, rfl⟩ := List.exists_cons_of_ne_nil hne
    have hb : b ≠ FEND := bne_iff_ne.mp (hmem b List.mem_cons_self)
    rw [List.append_assoc, List.dropWhile_append_of_pos (by simp)]
    simp [hb]
  have htake : (body ++ FEND :: tl).takeWhile (· != FEND) = body := by
    rw [List.takeWhile_append_of_pos hmem]; simp
  have hdrop : (body ++ FEND :: tl).dropWhile (· != FEND) = FEND :: tl := by
    rw [List.dropWhile_append_of_pos hmem]; simp
  rw [List.replicate_succ] at hcontent ⊢
  simp only [List.cons_append] at hcontent ⊢
  simp only [tokenize, hcontent, htake, hdrop, ↓reduceIte, List.isEmpty_cons, Bool.false_eq_true]

/-- An escaped payload is one token (R79, R190, R192). -/
theorem tokenize_escape_append {p : Bytes} (h : p ≠ []) (more : Bytes) :
    tokenize (escape p ++ more) = some (escape p, FEND :: more) := by
  have htok := tokenize_replicate_append (flatMap_escapeByte_ne_nil h) (FEND_notMem_flatMap_escapeByte p) 0 more
  simpa [escape] using htok

/-! ## KISS commands (R80, R81, R194) -/

@[simp] theorem cmdOf_commandByte (port cmd : Nibble) : cmdOf (commandByte port cmd) = cmd := by
  unfold cmdOf commandByte; exact BitVec.extractLsb'_append_eq_right

@[simp] theorem portOf_commandByte (port cmd : Nibble) : portOf (commandByte port cmd) = port := by
  unfold portOf commandByte; exact BitVec.extractLsb'_append_eq_left

/-- The frame of a command reads as that command (R79, R80, R194). -/
theorem interpretCommand_kissFrameBytes (port cmd : Nibble) (rest : Bytes) :
    interpretCommand (kissFrameBytes port cmd rest) =
      if cmd = 0 then .data port rest else .config cmd port rest.head? := by
  rw [interpretCommand, kissFrameBytes, unescape_escape, interpretContent, cmdOf_commandByte, portOf_commandByte]

/-- A command's frame decodes to the command's instruction and leaves its closing delimiter (R81, R190). -/
theorem decode_kissFrameBytes_append {port cmd : Nibble} {rest : Bytes} {i : Instr}
    (h : kissInstr (if cmd = 0 then .data port rest else .config cmd port rest.head?) = some i) (more : Bytes) :
    decode .kiss (kissFrameBytes port cmd rest ++ more) = .ok (i, FEND :: more) := by
  have htok : tokenize (kissFrameBytes port cmd rest ++ more) = some (kissFrameBytes port cmd rest, FEND :: more) :=
    tokenize_escape_append (List.cons_ne_nil _ _) more
  simp only [decode, htok, interpretCommand_kissFrameBytes]
  exact orError_eq_ok.mpr ⟨h, rfl⟩

/-- The codes 5 to 14 are the unlisted commands (R81). -/
theorem kissInstr_config_of_unlistedCode {cmd : Nibble} (h : unlistedCode cmd = true) (port : Nibble) (value : Option Byte) :
    cmd ≠ 0 ∧ kissInstr (.config cmd port value) = some (.kissUnlisted port cmd value) := by
  simp only [unlistedCode, Bool.and_eq_true, decide_eq_true_eq] at h
  have hne (c : Nibble) (hc : c.toNat < 5 ∨ c.toNat = 15) : cmd ≠ c := by rintro rfl; omega
  refine ⟨hne 0 (by decide), ?_⟩
  simp only [kissInstr, ↓reduceIte, hne 1 (by decide), hne 2 (by decide), hne 3 (by decide), hne 4 (by decide), hne 15 (by decide)]

/-- A well-formed KISS command's frame decodes to it. -/
theorem decode_kiss_encode_append {i : Instr} (hwf : i.wf = true) (hspace : i.space = some .kiss) (more : Bytes) :
    decode .kiss (encode i ++ more) = .ok (i, FEND :: more) := by
  cases i with
  | kissData port bytes => exact decode_kissFrameBytes_append rfl more
  | kissTxdelay port value | kissPersist port value | kissSlottime port value | kissTxtail port value | kissAbort port value =>
    exact decode_kissFrameBytes_append (by cases value <;> rfl) more
  | kissUnlisted port cmd value =>
    obtain ⟨hdata, hunlisted⟩ := kissInstr_config_of_unlistedCode hwf port value
    refine decode_kissFrameBytes_append ?_ more
    rw [if_neg hdata, Option.head?_toList, hunlisted]
  | blockReserved dir => cases dir <;> cases hspace
  | _ => cases hspace

end Sys2Proof
end

section
/-! The encodings of `30_encoding.md`: decoding and encoding agree, and words of its tables. -/

namespace Sys2Proof

/-- Outside the KISS space the byte sequences that decode to an instruction are its encoding with anything after it. -/
theorem decode_eq_ok_iff {sp : Space} (hsp : sp ≠ .kiss) {bs rest : Bytes} {i : Instr} :
    decode sp bs = .ok (i, rest) ↔ i.wf = true ∧ i.space = some sp ∧ encode i ++ rest = bs := by
  cases sp with
  | command => exact decode_block_eq_ok (dir := .h2d)
  | reply => exact decode_block_eq_ok (dir := .d2h)
  | kiss => exact absurd rfl hsp
  | special => exact decode_oneByte_eq_ok (.inl rfl) decodeSpecial_eq_some rfl fun _ _ => rfl
  | status => exact decode_oneByte_eq_ok (.inr rfl) decodeStatus_eq_some rfl fun _ _ => rfl

/-- Settles O1: a KISS frame by `decode_kiss_encode_append`, the other spaces by `decode_eq_ok_iff`. -/
theorem decodeOfEncode : Obligations.DecodeOfEncode := by
  unfold Obligations.DecodeOfEncode
  intro i sp more hwf hspace
  by_cases hsp : sp = .kiss
  · subst hsp
    exact decode_kiss_encode_append hwf hspace more
  · rw [if_neg hsp]
    exact (decode_eq_ok_iff hsp).mpr ⟨hwf, hspace, rfl⟩

/-- Settles O2, by `decode_eq_ok_iff`. -/
theorem encodeOfDecode : Obligations.EncodeOfDecode := by
  unfold Obligations.EncodeOfDecode
  intro sp bs rest i hsp h
  exact (decode_eq_ok_iff hsp).mp h

/-- Settles O3, by running the decoder on each word. -/
theorem writtenWordsDecode : Obligations.WrittenWordsDecode := by
  unfold Obligations.WrittenWordsDecode
  exact ⟨rfl, rfl, rfl, rfl, rfl, rfl⟩

end Sys2Proof
end

section
/-! SUPPORT. The host's reader (R101, R102): the size it has latched, the bytes it takes, when it stops, and the three ways a poll ends. -/

namespace Sys2Proof.Machine

/-! ## The reader -/

/-- The reader holds at most one byte until the size is latched, and a latched size is the second byte (R101). -/
def SizeLatched (t : Trh) : Prop :=
  (t.expv = false → t.acc.length ≤ 1) ∧ (t.expv = true → 2 ≤ t.acc.length ∧ t.acc.getD 1 0 = t.exp)

/-- The reader with which `READ_BLOCK` starts (R101). -/
def freshReader (timeout : Nat) (t : Trh) : Trh := { t with acc := [], expv := false, budget := timeout }

theorem exec_readBlock (timeout : Nat) (s : State) :
    exec (.readBlock timeout) s = pollOp { s with host.trh := freshReader timeout s.host.trh } := rfl

theorem freshReader_sizeLatched (timeout : Nat) (t : Trh) : SizeLatched (freshReader timeout t) := by
  simp [SizeLatched, freshReader]

theorem SizeLatched.expv_eq {t : Trh} (h : SizeLatched t) : t.expv = decide (2 ≤ t.acc.length) := by
  obtain ⟨hhead, hbody⟩ := h
  cases hx : t.expv with
  | true => simp [(hbody hx).left]
  | false => have := hhead hx; simp; omega

/-- With two bytes or more the reader stands at the size its second byte gives. -/
theorem SizeLatched.of_acc_eq {t : Trh} {code size : Byte} {p : Bytes} (h : SizeLatched t) (hacc : t.acc = code :: size :: p) :
    t = { acc := code :: size :: p, expv := true, exp := size, budget := t.budget } := by
  have hx : t.expv = true := by simp [h.expv_eq, hacc]
  obtain ⟨_, hexp⟩ := h.right hx
  rw [hacc] at hexp
  obtain ⟨acc, expv, exp, budget⟩ := t
  dsimp only at hacc hx hexp
  subst hacc hx hexp
  rfl

/-- The reader is complete when it holds one whole block: exactly `size + 2` bytes (R102). -/
theorem SizeLatched.complete_iff {t : Trh} (h : SizeLatched t) :
    t.complete = true ↔ ∃ (code size : Byte) (p : Bytes), t.acc = code :: size :: p ∧ p.length = size.toNat := by
  constructor
  · intro hc
    obtain ⟨hx, hlen⟩ : t.expv = true ∧ t.acc.length = t.exp.toNat + 2 := by simpa [Trh.complete] using hc
    match hacc : t.acc with
    | [] | [_] => simp [hacc] at hlen
    | code :: size :: p =>
      refine ⟨code, size, p, rfl, ?_⟩
      rw [h.of_acc_eq hacc] at hlen
      simpa using hlen
  · rintro ⟨code, size, p, hacc, hp⟩
    rw [h.of_acc_eq hacc]
    simp [Trh.complete, hp]

theorem trhPush_acc (t : Trh) (b : Byte) : (trhPush t b).acc = t.acc ++ [b] := by
  unfold trhPush; dsimp only; split <;> rfl

theorem trhPush_budget (t : Trh) (b : Byte) : (trhPush t b).budget = t.budget := by
  unfold trhPush; dsimp only; split <;> rfl

/-- The second byte is latched, and no later byte moves it. -/
theorem trhPush_sizeLatched {t : Trh} (h : SizeLatched t) (b : Byte) : SizeLatched (trhPush t b) := by
  obtain ⟨hhead, hbody⟩ := h
  cases hx : t.expv with
  | true =>
    obtain ⟨htwo, hexp⟩ := hbody hx
    have hkeep : (t.acc ++ [b]).getD 1 0 = t.acc.getD 1 0 := List.getD_append _ _ _ _ (by omega)
    simp only [SizeLatched, trhPush, hx, Bool.true_eq_false, false_and, if_false, false_imp_iff, true_imp_iff, hkeep]
    exact ⟨trivial, by simp; omega, hexp⟩
  | false =>
    by_cases htwo : 1 ≤ t.acc.length
    · simp [SizeLatched, trhPush, hx, htwo]
    · simp [SizeLatched, trhPush, hx, List.eq_nil_of_length_eq_zero (show t.acc.length = 0 by omega)]

theorem pollBytes_sizeLatched {t : Trh} (h : SizeLatched t) (bs : Bytes) : SizeLatched (pollBytes t bs).1 := by
  induction bs generalizing t with
  | nil => exact h
  | cons b bs ih =>
    unfold pollBytes; split
    · exact h
    · exact ih (trhPush_sizeLatched h b)

theorem pollBytes_budget (t : Trh) (bs : Bytes) : (pollBytes t bs).1.budget = t.budget := by
  induction bs generalizing t with
  | nil => rfl
  | cons b bs ih =>
    unfold pollBytes; split
    · rfl
    · rw [ih, trhPush_budget]

/-- A poll loses no byte (R102). -/
theorem pollBytes_append (t : Trh) (bs : Bytes) : (pollBytes t bs).1.acc ++ (pollBytes t bs).2 = t.acc ++ bs := by
  induction bs generalizing t with
  | nil => rfl
  | cons b bs ih =>
    unfold pollBytes; split
    · rfl
    · rw [ih, trhPush_acc, List.append_assoc, List.singleton_append]

/-- A poll stops only at the end of the block or of the bytes (R101). -/
theorem pollBytes_rest_of_incomplete {t : Trh} {bs : Bytes} (h : (pollBytes t bs).1.complete = false) : (pollBytes t bs).2 = [] := by
  induction bs generalizing t with
  | nil => rfl
  | cons b bs ih =>
    unfold pollBytes at h ⊢
    split
    next hc => simp [hc] at h
    next hc => exact ih (by simpa [hc] using h)

/-- A poll that finds the rest of the block takes it and no byte beyond it (R101). -/
theorem pollBytes_of_whole {t : Trh} {avail p rest : Bytes} {code size : Byte} (h : SizeLatched t) (hok : TrhOk t)
    (e : t.acc ++ avail = code :: size :: (p ++ rest)) (hp : p.length = size.toNat) :
    pollBytes t avail = ({ acc := code :: size :: p, expv := true, exp := size, budget := t.budget }, rest) := by
  have hlatched := pollBytes_sizeLatched h avail
  have hbytes := (pollBytes_append t avail).trans e
  have htaken : (pollBytes t avail).1.acc = code :: size :: p ∧ (pollBytes t avail).2 = rest := by
    cases hc : (pollBytes t avail).1.complete with
    | true =>
      obtain ⟨code', size', p', hacc, hp'⟩ := hlatched.complete_iff.mp hc
      rw [hacc] at hbytes ⊢
      obtain ⟨rfl, rfl, htail⟩ : code' = code ∧ size' = size ∧ p' ++ (pollBytes t avail).2 = p ++ rest := by
        simpa using hbytes
      obtain ⟨rfl, hrest⟩ := List.append_inj htail (hp'.trans hp.symm)
      exact ⟨rfl, hrest⟩
    | false =>
      have hrest := pollBytes_rest_of_incomplete hc
      rw [hrest, List.append_nil] at hbytes
      have hbound := pollBytes_ok hok avail
      rw [hlatched.of_acc_eq hbytes] at hbound
      obtain rfl : rest = [] := by
        simp [TrhOk] at hbound
        exact List.eq_nil_of_length_eq_zero (by omega)
      exact ⟨by simpa using hbytes, hrest⟩
  obtain ⟨hacc, hrest⟩ := htaken
  rw [← pollBytes_budget t avail, ← hlatched.of_acc_eq hacc, ← hrest]

/-- A poll that does not find the whole block takes every byte there is (R101). -/
theorem pollBytes_of_short {t : Trh} {avail : Bytes} (h : SizeLatched t) (e : splitBlock (t.acc ++ avail) = none) :
    ∃ t', pollBytes t avail = (t', []) ∧ t'.complete = false ∧ t'.acc = t.acc ++ avail ∧
      t'.expv = decide (2 ≤ (t.acc ++ avail).length) ∧ t'.budget = t.budget := by
  have hlatched := pollBytes_sizeLatched h avail
  have hbytes := pollBytes_append t avail
  have hc : (pollBytes t avail).1.complete = false := by
    rw [Bool.eq_false_iff]
    intro hc
    obtain ⟨code, size, p, hacc, hp⟩ := hlatched.complete_iff.mp hc
    rw [← hbytes, hacc] at e
    simp [splitBlock, hp] at e
  have hrest := pollBytes_rest_of_incomplete hc
  rw [hrest, List.append_nil] at hbytes
  exact ⟨_, Prod.ext rfl hrest, hc, hbytes, hbytes ▸ hlatched.expv_eq, pollBytes_budget t avail⟩

/-! ## The three ways a poll ends (R101) -/

theorem pollOp_of_complete {s : State} {t : Trh} {rest : Bytes} (h : pollBytes s.host.trh s.lD2H.avail = (t, rest))
    (hc : t.complete = true) :
    pollOp s = .next (hostAnswer (t.acc.headD 0) (t.acc.drop 2) { s with host.trh := t, lD2H.avail := rest }) := by
  simp [pollOp, h, hc, replyDispatch_eq]

theorem pollOp_of_expired {s : State} {t : Trh} {rest : Bytes} (h : pollBytes s.host.trh s.lD2H.avail = (t, rest))
    (hc : t.complete = false) (hb : t.budget = 0) :
    pollOp s = .next (hostTimeout { s with host.trh := { t with acc := [] }, lD2H.avail := rest }) := by
  simp [pollOp, h, hc, hb]

theorem pollOp_of_waiting {s : State} {t : Trh} {rest : Bytes} (h : pollBytes s.host.trh s.lD2H.avail = (t, rest))
    (hc : t.complete = false) (hb : t.budget ≠ 0) :
    pollOp s = .next (pushTasks [.pollSleep, .poll] { s with host.trh := t, lD2H.avail := rest }) := by
  simp [pollOp, h, hc, hb]

end Sys2Proof.Machine
end

section
/-! The guarantees of `READ_BLOCK` (`40_transport.md` R101, R102). -/

namespace Sys2Proof.Machine

/-- Settles O30: a poll loses no byte (`pollBytes_append`), completes only at a whole block (`SizeLatched.complete_iff`), and stops short
of one only when no byte is left (`pollBytes_rest_of_incomplete`). -/
theorem noPartialBlockIsDelivered : Obligations.NoPartialBlockIsDelivered := by
  unfold Obligations.NoPartialBlockIsDelivered
  intro t avail hhead hbody t' rest hpoll
  obtain ⟨rfl, rfl⟩ := Prod.mk.inj hpoll
  exact ⟨pollBytes_append t avail, (pollBytes_sizeLatched ⟨hhead, hbody⟩ avail).complete_iff.mp, pollBytes_rest_of_incomplete⟩

/-- Settles O29: what the first poll of a fresh reader takes is `pollBytes_of_whole` or `pollBytes_of_partial`; how it and every later
poll end, the three equations of `pollOp`. -/
theorem readBlockTakesOneBlock : Obligations.ReadBlockTakesOneBlock := by
  unfold Obligations.ReadBlockTakesOneBlock
  intro timeout s
  rw [exec_readBlock]
  have hfresh := freshReader_sizeLatched timeout s.host.trh
  refine ⟨fun code size p rest havail hp => ?whole, fun hsplit => ?short, fun n hn => hn ▸ rfl, fun t rest u hpoll hu => ?later⟩
  case whole =>
    have htaken := pollBytes_of_whole hfresh (trhOk_of_empty rfl) havail hp
    exact pollOp_of_complete htaken (by simp [Trh.complete, hp])
  case short =>
    obtain ⟨t, htaken, hc, hacc, hexpv, hbudget⟩ := pollBytes_of_short hfresh hsplit
    exact ⟨t, hacc, hexpv, hbudget, fun h0 => pollOp_of_expired htaken hc (hbudget.trans h0),
      fun hpos => pollOp_of_waiting htaken hc (hbudget.trans_ne (Nat.ne_of_gt hpos))⟩
  case later =>
    subst hu
    exact ⟨pollOp_of_complete hpoll, pollOp_of_expired hpoll, pollOp_of_waiting hpoll⟩

end Sys2Proof.Machine
end

section
/-! SUPPORT. A block with its size byte (R70), what the host makes of the answer to a command (R113), the command a type byte selects
(R104), and the main loop of the device (R103, R112). -/

namespace Sys2Proof.Machine

/-! ## Blocks -/

/-- A payload that fits has a size byte, and its block is the type, that byte, the payload (R70). -/
theorem exists_blockBytes_eq {p : Bytes} (h : p.length ≤ 255) :
    ∃ size : Byte, size.toNat = p.length ∧ BitVec.ofNat 8 p.length = size ∧ ∀ code, blockBytes code p = code :: size :: p :=
  ⟨_, by rw [BitVec.toNat_ofNat]; omega, rfl, fun _ => rfl⟩

theorem ofNat_length_of_size {p : Bytes} {size : Byte} (h : p.length = size.toNat) : BitVec.ofNat 8 p.length = size := by
  rw [h, BitVec.ofNat_toNat, BitVec.setWidth_eq]

/-! ## The answers to the host's commands (R113, R114) -/

theorem answerReply_of_ok {c : Cmd} {code : Byte} {p : Bytes} (h : classifyAnswer c code p = .ok) (s : State) :
    answerReply c code p s = setRes (.block code (BitVec.ofNat 8 p.length) p) s := by simp [answerReply, h]

theorem answerReply_of_fail {c : Cmd} {code : Byte} {p info : Bytes} {e : Cause} (h : classifyAnswer c code p = .fail e info)
    (s : State) : answerReply c code p s = endExchange (.fail e info) s := by simp [answerReply, h]

/-- What an exchange makes of its answer, and the line it logs: the length test of R77 first, then the type. -/
theorem answerReply_eq {c : Cmd} {code size : Byte} {p : Bytes} {res : Result} {l : List LogEvent} (hp : p.length = size.toNat)
    (h : (res, l) = (if (c = .tx ∨ c = .rx) ∧ p.length + 2 < 4 then (.fail .notReceived [], [.notReceived])
      else if code = typeCode c.blockType then (.block code size p, [])
      else if (c = .tx ∧ code = 0x07) ∨ (c = .rx ∧ code = 0x08) then (.fail .ko p, [.ko p])
      else (.fail .badReply [code], [.badReply code]))) (s : State) :
    answerReply c code p s = { s with host.res := res, log := s.log ++ l } := by
  by_cases hshort : (c = .tx ∨ c = .rx) ∧ p.length + 2 < 4
  · rw [if_pos hshort] at h; cases h
    have hclass : classifyAnswer c code p = .fail .notReceived [] := if_pos hshort
    exact answerReply_of_fail hclass s
  rw [if_neg hshort] at h
  by_cases hown : code = typeCode c.blockType
  · rw [if_pos hown] at h; cases h
    have hclass : classifyAnswer c code p = .ok := (if_neg hshort).trans (if_pos hown)
    rw [answerReply_of_ok hclass, ofNat_length_of_size hp, List.append_nil]; rfl
  rw [if_neg hown] at h
  by_cases hko : (c = .tx ∧ code = 0x07) ∨ (c = .rx ∧ code = 0x08)
  · rw [if_pos hko] at h; cases h
    have hclass : classifyAnswer c code p = .fail .ko p := (if_neg hshort).trans ((if_neg hown).trans (if_pos hko))
    exact answerReply_of_fail hclass s
  · rw [if_neg hko] at h; cases h
    have hclass : classifyAnswer c code p = .fail .badReply [code] := (if_neg hshort).trans ((if_neg hown).trans (if_neg hko))
    exact answerReply_of_fail hclass s

/-- What a time-out does to a waiting exchange (R113). -/
theorem hostTimeout_reply {s : State} {c : Cmd} {k : List Task} (h : s.host.ctl = .awaitReply c :: k) :
    hostTimeout s = { s with host.ctl := k, host.res := .timeout, log := s.log ++ [.timeout] } := by
  simp [hostTimeout, h, endExchange, logFailure, logEvent, setRes, setCtl]

/-- What a time-out does to a waiting `HOST_INIT` (R114). -/
theorem hostTimeout_init {s : State} {n : Nat} {k : List Task} (h : s.host.ctl = .awaitInit n :: k) :
    hostTimeout s = initFailed n (setCtl k s) := by simp [hostTimeout, h]

/-- A failed attempt of `HOST_INIT`: a second one after the first, the failure after any other (R114). -/
theorem initFailed_eq (n : Nat) (k : List Task) (s : State) :
    initFailed n (setCtl k s) =
      if n = 1 then { s with log := s.log ++ [.radioInitAttempt], host.ctl := .initAttempt 2 :: k }
      else { s with
        log := s.log ++ [.radioInitAttempt, .radioInitPersistent]
        host.ctl := k
        host.res := .fail .radioInit [] } := by
  unfold initFailed
  split
  · rfl
  · simp [logEvent, setRes, setCtl]

/-- An attempt of `HOST_INIT` whose record fits: the INIT block, then the read of its echo (R114). -/
theorem initAttemptOp_of_fits {s : State} (h : s.host.cfg.parms.length ≤ 255) (n : Nat) :
    initAttemptOp n s =
      pushTasks [.call (.readBlock s.host.cfg.tInit), .awaitInit n]
        (setRes (.wrote (s.host.cfg.parms.length + 2)) (putH2D (blockBytes 0x01 s.host.cfg.parms) s)) := by
  unfold initAttemptOp; rw [sendCommandOp_of_fits .init h]; rfl

theorem ownExchange_iff (c : Cmd) : ownExchange c = true ↔ c = .radioStatus ∨ c = .echoTest := by cases c <;> decide

/-! ## The commands of the device (R104, R111) -/

theorem exec_devDispatch (code : Byte) (p : Bytes) (s : State) : exec (.devDispatch code p) s = exec (decodeCommand code p) s :=
  commandDispatch_eq code p s

/-- The type byte alone selects the command (R104). -/
theorem decodeCommand_eq (code : Byte) (p : Bytes) :
    decodeCommand code p =
      if code = 0x01 then .init p else if code = 0x02 then .tx p else if code = 0x03 then .rx p
      else if code = 0x04 then .rxCancel p else if code = 0x05 then .radioStatus p else if code = 0x06 then .echoTest p
      else .blockReserved .h2d code p := by
  unfold decodeCommand blockTypeOf
  split_ifs <;> rfl

/-! ## The main loop of the device (R103, R112) -/

/-- The receiver after one byte more, the second one latched as the size. -/
theorem trdPush_eq (t : Trd) (b : Byte) :
    trdPush t b = if t.expv = false ∧ 1 ≤ t.acc.length
      then { acc := t.acc ++ [b], expv := true, exp := (t.acc ++ [b]).getD 1 0 }
      else { t with acc := t.acc ++ [b] } := by
  simp [trdPush]

/-- The byte that completes a block runs the command the block stands for inside the bracket, and the receiver is empty after it. -/
theorem exec_devRecv_of_complete {s : State} {b : Byte} {rest p : Bytes} {code size : Byte} (h : s.lH2D.avail = b :: rest)
    (hc : (trdPush s.dev.trd b).complete = true) (hacc : (trdPush s.dev.trd b).acc = code :: size :: p) :
    exec .devRecv s =
      andThen (exec (decodeCommand code p) { s with dev.trd := trdPush s.dev.trd b, lH2D.avail := rest, dev.gie := false })
        fun u => .next (trdClear { u with dev.gie := true }) := by
  have hrecv : exec .devRecv s = _ := execDevRecv_complete h hc
  rw [hrecv, hacc, List.headD_cons, List.drop_succ_cons, List.drop_succ_cons, List.drop_zero]
  unfold bracket
  rw [commandDispatch_eq]
  cases exec (decodeCommand code p) { s with dev.trd := trdPush s.dev.trd b, lH2D.avail := rest, dev.gie := false } <;> rfl

theorem exec_devRecv_of_none {s : State} (h : s.lH2D.avail = []) : exec .devRecv s = .next s := by
  simp [exec, execDevRecv, h]

/-- The block at the head of `OUTQ` goes to the link, and `GIE` is 1 after it (R112). -/
theorem exec_devSend_of_cons {s : State} {blk : Bytes} {q : List Bytes} (h : s.dev.outq = blk :: q) :
    exec .devSend s = .next { s with dev.outq := q, dev.gie := true, lD2H.flight := s.lD2H.flight ++ blk } := by
  simp [exec, execDevSend, h, bracket, putD2H, chanPut]

theorem exec_devSend_of_none {s : State} (h : s.dev.outq = []) : exec .devSend s = .next s := by
  simp [exec, execDevSend, h]

/-! ## The turn at the head of the agenda -/

/-- With a turn at the head of the agenda the step is that turn. -/
theorem step_of_agenda {s : State} {τ : Turn} {rest : List Turn} (hc : configOk s = true) (h : s.agenda = τ :: rest) :
    step s = runTurn τ { s with agenda := rest } := by
  rw [step_of_config hc, agentStep_of_turn (τ := τ) (u := { s with agenda := rest }) (by simp [nextTurn, h])]

end Sys2Proof.Machine
end

section
/-! The block transport of `40_transport.md`: what the host sends and makes of the answers, what the device receives, runs and answers. -/

namespace Sys2Proof.Machine

/-- Settles O28, by the two equations of `sendCommandOp`. -/
theorem sendCommandPutsOneBlock : Obligations.SendCommandPutsOneBlock := by
  unfold Obligations.SendCommandPutsOneBlock
  refine fun c p s => ⟨fun hfit => ?_, fun h => congrArg _ (sendCommandOp_of_not_fits c h s)⟩
  obtain ⟨size, hsize, -, hblock⟩ := exists_blockBytes_eq hfit
  refine ⟨size, hsize, ?_⟩
  rw [← hblock]
  exact congrArg _ (sendCommandOp_of_fits c hfit s)

/-- Settles O31: each of the blocks is read alike, whatever its type, and nothing waits for it (`hostAnswer_plain`). -/
theorem plainReadReturnsTheBlock : Obligations.PlainReadReturnsTheBlock := by
  unfold Obligations.PlainReadReturnsTheBlock
  intro p s hplain hfit
  obtain ⟨size, hsize, rfl, -⟩ := exists_blockBytes_eq hfit
  have hread (code : Byte) : Host.Outcome.next (hostAnswer code p s) = (.next _ : Out) :=
    congrArg _ (hostAnswer_plain hplain code p)
  refine ⟨⟨_, hsize, fun i code hmem => ?_, hread⟩, hostTimeout_plain hplain⟩
  have hexec : exec i s = .next (hostAnswer code p s) := by
    simp only [List.mem_cons, Prod.mk.injEq, List.not_mem_nil, or_false] at hmem
    rcases hmem with ⟨rfl, rfl⟩ | ⟨rfl, rfl⟩ | ⟨rfl, rfl⟩ | ⟨rfl, rfl⟩ | ⟨rfl, rfl⟩ | ⟨rfl, rfl⟩ | ⟨rfl, rfl⟩ | ⟨rfl, rfl⟩ <;> rfl
  exact hexec.trans (hread code)

/-- Settles O32: when the exchange is asked for (`hostBetween_iff`), what it sends (`exchangeOp_of_fits`), what it makes of the answer
(`answerReply_eq`). -/
theorem hostClassifiesTheAnswer : Obligations.HostClassifiesTheAnswer := by
  unfold Obligations.HostClassifiesTheAnswer
  intro c p s k
  refine ⟨fun asked hasked => ?asked, fun t ht hfit => ?sent, fun h => congrArg _ (exchangeOp_of_not_fits c h s), fun hctl => ?answered⟩
  case asked =>
    subst hasked
    rw [← ownExchange_iff, ← hostBetween_iff]
    refine ⟨fun ⟨hown, harmed, hbetween⟩ => congrArg _ (askExchange_of_between hown hbetween harmed p), fun hnot => ?_⟩
    have htest : (ownExchange c && hostBetween s.host.ctl && !s.host.sch.armed) = false := by
      rw [Bool.eq_false_iff]
      intro h
      simp only [Bool.and_eq_true, Bool.not_eq_true'] at h
      obtain ⟨⟨hown, hbetween⟩, harmed⟩ := h
      exact hnot ⟨hown, harmed, hbetween⟩
    exact congrArg _ (askExchange_of_not htest p)
  case sent =>
    obtain rfl : t = answerTimeout c s.host.cfg := ht.trans (by cases c <;> rfl)
    obtain ⟨size, hsize, -, hblock⟩ := exists_blockBytes_eq hfit
    refine ⟨size, hsize, ?_⟩
    rw [← hblock]
    exact congrArg _ (exchangeOp_of_fits c hfit s)
  case answered =>
    refine ⟨hostTimeout_reply hctl, fun code size res l hp h => ?_⟩
    rw [exec_decodeReply, hostAnswer_reply hctl, answerReply_eq hp h]
    rfl

/-- Settles O33, by `initAttemptOp_of_fits` and `initFailed_eq`. -/
theorem hostInitTriesTwice : Obligations.HostInitTriesTwice := by
  unfold Obligations.HostInitTriesTwice
  intro s k
  refine ⟨fun hfit => ?sent, fun n code p hctl => ⟨fun hcode => ?echo, fun t ht => ⟨fun hcode => ?other, ?timeout⟩⟩⟩
  case sent =>
    obtain ⟨size, hsize, -, hblock⟩ := exists_blockBytes_eq hfit
    refine ⟨size, hsize, fun n t ht => ?_⟩
    have hattempt : initAttemptOp n s = t := by
      rw [initAttemptOp_of_fits hfit n, ht, ← hblock]
      rfl
    exact ⟨fun hn => congrArg _ (hn ▸ hattempt), congrArg _ hattempt⟩
  case echo =>
    subst hcode
    rw [exec_decodeReply, hostAnswer_init hctl]
    rfl
  case other =>
    rw [exec_decodeReply, hostAnswer_init hctl, ht, ← initFailed_eq]
    exact congrArg _ (if_neg hcode)
  case timeout =>
    rw [ht, ← initFailed_eq]
    exact hostTimeout_init hctl

/-- Settles O34: `DEV_RECV` by whether the byte completes the block, `DEV_SEND` by whether there is one to send. -/
theorem devMainMovesBytesAndBlocks : Obligations.DevMainMovesBytesAndBlocks := by
  unfold Obligations.DevMainMovesBytesAndBlocks
  intro s b rest
  refine ⟨exec_devRecv_of_none, fun havail trd htrd => ?_, fun _ _ => exec_devSend_of_cons, exec_devSend_of_none⟩
  rw [← trdPush_eq] at htrd
  subst htrd
  refine ⟨fun hnot => execDevRecv_incomplete havail ?_, fun code size p u hexpv hlen hacc hrun => ?_⟩
  · simpa [Trd.complete] using hnot
  · rw [exec_devRecv_of_complete havail (by simp [Trd.complete, hexpv, hlen]) hacc, hrun]
    rfl

/-- Settles O11: the type byte selects the command (`decodeCommand_eq`); what is ignored is ignored by the command's own first test. -/
theorem dispatchByTypeOrIgnore : Obligations.DispatchByTypeOrIgnore := by
  unfold Obligations.DispatchByTypeOrIgnore
  refine ⟨fun code p s => by rw [exec_devDispatch, decodeCommand_eq], fun ty p s hfit => ?respond, fun p s => ⟨fun code hcode => ?_,
    fun h => ?_, fun h => ?_, fun h => ?_⟩⟩
  case respond =>
    obtain ⟨size, hsize, -, hblock⟩ := exists_blockBytes_eq hfit
    exact ⟨size, hsize, by rw [respond, hblock]⟩
  · have hres : reservedType .h2d code = true := by
      simp only [reservedType, Bool.or_eq_true, decide_eq_true_eq]
      exact hcode.imp_left fun h => by rw [h]; rfl
    refine ⟨rfl, ?_⟩
    rw [exec_devDispatch, show decodeCommand code p = _ from decodeBlock_of_reservedType hres p]
    rfl
  · have hinit : execInit p s = .next s := if_pos h
    exact ⟨hinit, hinit⟩
  · rw [← List.length_eq_zero_iff] at h
    have htx : execTx p s = .next s := if_pos h
    exact ⟨htx, htx⟩
  · have hrx : execRx p s = .next s := if_pos h
    exact ⟨hrx, hrx⟩

/-- Settles O12: the two arms of `execInit`. -/
theorem initCommandKeepsTheRecord : Obligations.InitCommandKeepsTheRecord := by
  unfold Obligations.InitCommandKeepsTheRecord
  intro p s i hi
  have hexec : exec i s = execInit p s := by rcases hi with rfl | rfl <;> rfl
  rw [hexec]
  refine ⟨fun hlen hmode => ?_, fun h => if_pos h⟩
  exact if_neg (by simp [hlen, hmode])

/-- Settles O13: `respond` queues the block of the payload and of the snapshot. -/
theorem echoAndStatusAnswer : Obligations.EchoAndStatusAnswer := by
  unfold Obligations.EchoAndStatusAnswer
  intro p s hfit hstatus
  have hsnap : (radioSnapshot s).length = s.par.statusLen := by simp [radioSnapshot]
  refine ⟨?echo, ?status⟩
  case echo =>
    obtain ⟨size, hsize, -, hblock⟩ := exists_blockBytes_eq hfit
    refine ⟨size, hsize, fun i hi => ?_⟩
    rw [← hblock]
    rcases hi with rfl | rfl <;> rfl
  case status =>
    obtain ⟨size, hsize, -, hblock⟩ := exists_blockBytes_eq (hsnap.trans_le hstatus)
    refine ⟨size, radioSnapshot s, hsize.trans hsnap, hsnap, fun i hi => ?_⟩
    rw [← hblock]
    rcases hi with rfl | rfl <;> rfl

/-- Settles O48: the bytes that decode to `i` are the block the receiver has completed, and `DEV_RECV` runs what the block stands for
(`exec_devRecv_of_complete`); the two calls are the turn itself. -/
theorem stepRunsTheDecodedInstruction : Obligations.StepRunsTheDecodedInstruction := by
  unfold Obligations.StepRunsTheDecodedInstruction
  intro s i rest hconf hwf
  refine ⟨fun b avail acc hagenda havail hacc hc hdecode => ?block, fun k hagenda hctl => ?call, fun hagenda => ?direct⟩
  case block =>
    obtain ⟨code, p, -, hblock, hi⟩ := (decode_block_eq_ok_iff_exists (dir := .h2d)).mp hdecode
    have hpush : (trdPush s.dev.trd b).acc = blockBytes code p := by
      rw [trdPush_acc, ← hacc, hblock, List.append_nil]
    rw [step_of_agenda hconf hagenda, ← hi]
    exact exec_devRecv_of_complete (s := { s with agenda := rest }) havail hc hpush
  case call =>
    rw [step_of_agenda hconf hagenda]
    simp [runTurn, hostStep, hctl, execChecked, hwf, setCtl]
  case direct =>
    rw [step_of_agenda hconf hagenda]
    simp [runTurn, execChecked, hwf]

end Sys2Proof.Machine
end

section
/-! SUPPORT. The blocks of a packet (R130): how many there are, what they carry, and that together they carry the payload. -/

namespace Sys2Proof.Machine

/-! ## The number of blocks (R6, R130) -/

/-- The count of the blocks is Mathlib's ceiling division, whose laws the count so has. -/
theorem blockCount_eq_ceilDiv (len b : Nat) : blockCount len b = len ⌈/⌉ (b - 2) := (Nat.ceilDiv_eq_add_pred_div _ _).symm

/-- The count is the least number of blocks that hold the payload (R6). -/
theorem blockCount_le_iff {b : Nat} (hb : 3 ≤ b) (len q : Nat) : blockCount len b ≤ q ↔ len ≤ q * (b - 2) := by
  rw [blockCount_eq_ceilDiv, ceilDiv_le_iff_le_mul (show 0 < b - 2 by omega), Nat.mul_comm]

/-- A block is one of the packet's when its data starts inside the payload. -/
theorem lt_blockCount_iff {b : Nat} (hb : 3 ≤ b) (len i : Nat) : i < blockCount len b ↔ i * (b - 2) < len := by
  rw [← Nat.not_le, blockCount_le_iff hb, Nat.not_le]

theorem le_blockCount_mul {b : Nat} (hb : 3 ≤ b) (len : Nat) : len ≤ blockCount len b * (b - 2) :=
  (blockCount_le_iff hb len _).mp le_rfl

/-- A payload makes no block exactly when it is empty (R131). -/
theorem blockCount_eq_zero_iff {b : Nat} (hb : 3 ≤ b) (len : Nat) : blockCount len b = 0 ↔ len = 0 := by
  rw [← Nat.le_zero, blockCount_le_iff hb, Nat.zero_mul, Nat.le_zero]

/-- The count in the form of R136, which subtracts from `B` and not from the sum. -/
theorem blockCount_eq_add_sub_div {b : Nat} (hb : 3 ≤ b) (len : Nat) : blockCount len b = (len + (b - 3)) / (b - 2) := by
  unfold blockCount ceilDiv
  congr 1
  omega

/-! ## One block -/

/-- The countdowns of a packet of up to 256 blocks fit their byte (R87, R137). -/
theorem countdownOf_toNat {n : Nat} (hn : n ≤ 256) (i : Nat) : (countdownOf n i).toNat = n - 1 - i := by
  rw [countdownOf, BitVec.toNat_ofNat]
  omega

/-- Only the last block counts down to 0. -/
theorem countdownOf_eq_zero_iff {n i : Nat} (hn : n ≤ 256) (hi : i < n) : countdownOf n i = 0 ↔ i + 1 = n := by
  have hzero : (0 : Byte).toNat = 0 := rfl
  rw [← BitVec.toNat_inj, countdownOf_toNat hn, hzero]
  omega

theorem blockData_length (payload : Bytes) (b i : Nat) :
    (blockData payload b i).length = min (b - 2) (payload.length - i * (b - 2)) := by simp [blockData]

/-- The first `i` blocks carry `payload[0 : i·(B−2)]`, and block `i` what comes next. -/
theorem take_append_blockData (payload : Bytes) (b i : Nat) :
    payload.take (i * (b - 2)) ++ blockData payload b i = payload.take ((i + 1) * (b - 2)) := by
  rw [blockData, Nat.succ_mul, List.take_add]

/-- Every block but the last is full. -/
theorem blockData_length_of_not_last {b : Nat} (hb : 3 ≤ b) {payload : Bytes} {i : Nat}
    (hi : i + 1 < blockCount payload.length b) : (blockData payload b i).length = b - 2 := by
  rw [lt_blockCount_iff hb, Nat.succ_mul] at hi
  rw [blockData_length]
  omega

theorem blockData_length_pos {b : Nat} (hb : 3 ≤ b) {payload : Bytes} {i : Nat} (hi : i < blockCount payload.length b) :
    1 ≤ (blockData payload b i).length := by
  rw [lt_blockCount_iff hb] at hi
  rw [blockData_length]
  omega

theorem blockData_length_le (payload : Bytes) (b i : Nat) : (blockData payload b i).length ≤ b - 2 := by
  rw [blockData_length]
  exact Nat.min_le_left _ _

/-! ## All the blocks -/

theorem packetBlocks_length (payload : Bytes) (b : Nat) : (packetBlocks payload b).length = blockCount payload.length b := by
  simp [packetBlocks]

theorem packetBlocks_getElem? {payload : Bytes} {b i : Nat} (hi : i < blockCount payload.length b) :
    (packetBlocks payload b)[i]? = some (countdownOf (blockCount payload.length b) i, blockData payload b i) := by
  simp [packetBlocks, hi]

/-- The data of the first `n` blocks, put together. -/
theorem flatten_blockData (payload : Bytes) (b n : Nat) :
    ((List.range n).map (blockData payload b)).flatten = payload.take (n * (b - 2)) := by
  induction n with
  | zero => simp
  | succ n ih => simp [List.range_succ, ih, take_append_blockData]

/-- The blocks together carry the payload. -/
theorem flatten_packetBlocks {b : Nat} (hb : 3 ≤ b) (payload : Bytes) :
    ((packetBlocks payload b).map Prod.snd).flatten = payload := by
  have hdata : (packetBlocks payload b).map Prod.snd = (List.range (blockCount payload.length b)).map (blockData payload b) := by
    simp [packetBlocks, Function.comp_def]
  rw [hdata, flatten_blockData, List.take_of_length_le (le_blockCount_mul hb _)]

end Sys2Proof.Machine
end

section
/-! SUPPORT. The segmentation engine's operations: what an answered exchange leaves (R132, R134), and what `RECEIVE_PACKET` makes of
a block (R133, R135). -/

namespace Sys2Proof.Machine

/-! ## The end of an exchange (R132, R134) -/

/-- The lines `logFailure` logs of a result: `endExchange_eq` says so. -/
def failureLog : Result → List LogEvent
  | .timeout => [.timeout]
  | .fail .notReceived _ => [.notReceived]
  | .fail .ko info => [.ko info]
  | .fail .badReply info => [.badReply (info.headD 0)]
  | .fail .crc _ => [.crc]
  | _ => []

/-- All the end of an exchange does to the state. -/
theorem endExchange_eq (r : Result) (s : State) :
    endExchange r s = { s with host.res := r, log := s.log ++ failureLog r } := by
  unfold endExchange logFailure failureLog
  split <;> simp [setRes, logEvent]

/-- What a time-out does to a waiting `SEND_BLOCK` or `RECEIVE_BLOCK` (R281). -/
theorem hostTimeout_block {s : State} {w : Task} {k : List Task} (hw : w = .awaitTx ∨ w = .awaitRx) (h : s.host.ctl = w :: k) :
    hostTimeout s = { s with host.ctl := k, host.res := .timeout, log := s.log ++ [.timeout] } := by
  have htimeout : hostTimeout s = endExchange .timeout (setCtl k s) := by
    rcases hw with rfl | rfl <;> simp [hostTimeout, h]
  rw [htimeout, endExchange_eq]
  rfl

/-- The answer to TX by its tests in the order of R132. -/
theorem classifyAnswer_tx (code : Byte) (p : Bytes) :
    classifyAnswer .tx code p =
      if p.length + 2 < 4 then .fail .notReceived [] else if code = 0x02 then .ok else if code = 0x07 then .fail .ko p
      else .fail .badReply [code] := by
  simp [classifyAnswer, Cmd.blockType, typeCode]

/-- The answer to RX by its tests in the order of R113. -/
theorem classifyAnswer_rx (code : Byte) (p : Bytes) :
    classifyAnswer .rx code p =
      if p.length + 2 < 4 then .fail .notReceived [] else if code = 0x03 then .ok else if code = 0x08 then .fail .ko p
      else .fail .badReply [code] := by
  simp [classifyAnswer, Cmd.blockType, typeCode]

/-- The data of an RX ack stands between the countdown and the two trailing bytes (R74), whichever end is cut first. -/
theorem readDataShape_eq (p : Bytes) :
    readDataShape p =
      if p.length < 3 then .fail .badReply [BitVec.ofNat 8 p.length]
      else if (p.getD (p.length - 1) 0).getLsbD 7 = false then .fail .crc []
      else .received (p.getD 0 0) ((p.take (p.length - 2)).drop 1) := by
  have hlast : p.getLastD 0 = p.getD (p.length - 1) 0 := by
    rw [List.getLastD_eq_getLast?, List.getLast?_eq_getElem?, List.getD_eq_getElem?_getD]
  have hfirst : p.headD 0 = p.getD 0 0 := by cases p <;> rfl
  have hdata : (p.drop 1).take (p.length - 3) = (p.take (p.length - 2)).drop 1 := by
    rw [List.drop_take]
    rfl
  rw [readDataShape, crcValid, hlast, hfirst, hdata]

/-- The answer to RX by its tests in the order of R134: the type is the ack's or the KO's, so which is tested first does not
matter. -/
theorem receiveResult_eq (code : Byte) (p : Bytes) :
    receiveResult code p =
      if p.length + 2 < 4 then .fail .notReceived [] else if code = 0x08 then .fail .ko p
      else if code ≠ 0x03 then .fail .badReply [code] else readDataShape p := by
  unfold receiveResult
  rw [classifyAnswer_rx]
  by_cases hshort : p.length + 2 < 4
  · simp only [if_pos hshort]
  simp only [if_neg hshort]
  by_cases hack : code = 0x03
  · subst hack
    rfl
  by_cases hko : code = 0x08
  · subst hko
    rfl
  · simp only [if_neg hack, if_neg hko, if_pos (show code ≠ 0x03 from hack)]

/-! ## Sending a packet (R131, R137) -/

theorem setRes_of_res {s : State} {r : Result} (h : s.host.res = r) : setRes r s = s := by subst h; rfl

theorem packetFits_iff (payload : Bytes) (b : Nat) :
    packetFits payload b = true ↔ 3 ≤ b ∧ b ≤ 253 ∧ blockCount payload.length b ≤ 256 := by
  simp [packetFits, blockSizeOk, and_assoc]

theorem execSendPacket_of_not_fits {payload : Bytes} {b : Nat} (h : packetFits payload b = false) (delay : Nat) (s : State) :
    execSendPacket payload b delay s = .next (setRes (.fail .refused []) s) := if_pos h

/-- A packet within the limits: nothing to send, or its first block (R131). -/
theorem execSendPacket_of_fits {payload : Bytes} {b : Nat} (h : packetFits payload b = true) (delay : Nat) (s : State) :
    execSendPacket payload b delay s =
      if blockCount payload.length b = 0 then .next { s with host.seg.nblk := 0, host.seg.idx := 0, host.res := .ok }
      else .next (packetBlockOp payload b delay { s with host.seg.nblk := blockCount payload.length b, host.seg.idx := 0 }) := by
  rw [execSendPacket, if_neg (by simp [h])]
  dsimp only
  split
  next hzero => rw [hzero]; rfl
  next => rfl

/-- A block that was not acked ends the send with its result (R131). -/
theorem packetSentOp_of_failed {s : State} (h : s.host.res ≠ .ok) (payload : Bytes) (b delay : Nat) :
    packetSentOp payload b delay s = s := by
  unfold packetSentOp
  split
  next hok => exact absurd hok h
  next => rfl

/-- After a good answer the next block, behind the delay (R131). -/
theorem packetSentOp_of_more {s : State} (h : s.host.res = .ok) (hmore : s.host.seg.idx + 1 < s.host.seg.nblk)
    (payload : Bytes) (b delay : Nat) :
    packetSentOp payload b delay s = { s with
      host.seg.idx := s.host.seg.idx + 1
      host.ctl := (if delay = 0 then [] else [.sleep delay]) ++ .packetBlock payload b delay :: s.host.ctl } := by
  have hdelay : (if delay > 0 then [Task.sleep delay] else []) = if delay = 0 then [] else [.sleep delay] := by
    cases delay <;> rfl
  simp [packetSentOp, h, hmore, hdelay, pushTasks]

/-- After the last good answer the send is over, and its `Ok` is the result already there (R131). -/
theorem packetSentOp_of_last {s : State} (h : s.host.res = .ok) (hlast : s.host.seg.nblk ≤ s.host.seg.idx + 1)
    (payload : Bytes) (b delay : Nat) :
    packetSentOp payload b delay s = { s with host.seg.idx := s.host.seg.idx + 1 } := by
  have hsent : packetSentOp payload b delay s = setRes .ok { s with host.seg.idx := s.host.seg.idx + 1 } := by
    simp [packetSentOp, h, Nat.not_lt.mpr hlast]
  exact hsent.trans (setRes_of_res h)

/-! ## Receiving a packet (R133, R135) -/

theorem blockSizeOk_iff (b : Nat) : blockSizeOk b = true ↔ 3 ≤ b ∧ b ≤ 253 := by simp [blockSizeOk]

/-- The engine after it has counted a block and, with the first one, latched the count to expect (R133). -/
def latched (cd : Byte) (g : Seg) : Seg :=
  { g with nread := g.nread + 1, expcnt := if g.nread = 0 then cd.toNat + 1 else g.expcnt }

/-- The block is the packet's first, or counts down by one (R135). -/
def InSequence (cd : Byte) (g : Seg) : Prop := g.nread = 0 ∨ cd.toNat + (g.nread + 1) = g.expcnt

/-- A block that was not received discards the packet (R133). -/
theorem blockReceivedOp_of_failed {s : State} (h : ∀ cd d, s.host.res ≠ .received cd d) (b t : Nat) :
    blockReceivedOp b t s = { s with host.seg.asm := [] } := by
  unfold blockReceivedOp
  split
  next cd d hres => exact absurd hres (h cd d)
  next => rfl

/-- All `RECEIVE_PACKET` does with a received block: the count, then the sequence check, then the end or the next block. -/
theorem blockReceivedOp_of_received {s : State} {cd : Byte} {d : Bytes} (hres : s.host.res = .received cd d) (b t : Nat) :
    blockReceivedOp b t s =
      if s.host.seg.nread = 0 ∨ cd.toNat + (s.host.seg.nread + 1) = s.host.seg.expcnt then
        if cd = 0 then { s with
          host.seg := { latched cd s.host.seg with asm := s.host.seg.asm ++ d }
          host.res := .packet (s.host.seg.asm ++ d) }
        else { s with
          host.seg := { latched cd s.host.seg with asm := s.host.seg.asm ++ d }
          host.ctl := .call (.receiveBlock (BitVec.ofNat 8 b) t false) :: .blockReceived b t :: s.host.ctl }
      else { s with
        host.seg := { latched cd s.host.seg with asm := [] }
        host.res := .fail .seq [cd]
        log := s.log ++ [.seq cd] } := by
  simp only [blockReceivedOp, hres, appendBuffer_asm, seqOk, decide_eq_true_eq, latched, discardAsm, nextReceive, setRes, logEvent,
    pushTasks, List.cons_append, List.nil_append]
  by_cases hfirst : s.host.seg.nread = 0
  · simp only [hfirst, Nat.zero_add, if_true, true_or]
  · simp only [hfirst, Nat.add_eq_right, if_false, false_or]

section
variable {s : State} {cd : Byte} {d : Bytes} (hres : s.host.res = .received cd d) (b t : Nat)
include hres

/-- A break in the sequence discards the packet and is logged (R135). -/
theorem blockReceivedOp_of_gap (h : ¬InSequence cd s.host.seg) :
    blockReceivedOp b t s = { s with
      host.seg := { latched cd s.host.seg with asm := [] }
      host.res := .fail .seq [cd]
      log := s.log ++ [.seq cd] } :=
  (blockReceivedOp_of_received hres b t).trans (if_neg h)

/-- The block of countdown 0 ends the packet (R133). -/
theorem blockReceivedOp_of_last (h : InSequence cd s.host.seg) (hcd : cd = 0) :
    blockReceivedOp b t s = { s with
      host.seg := { latched cd s.host.seg with asm := s.host.seg.asm ++ d }
      host.res := .packet (s.host.seg.asm ++ d) } :=
  (blockReceivedOp_of_received hres b t).trans ((if_pos h).trans (if_pos hcd))

/-- Any other block is followed by the next one (R133). -/
theorem blockReceivedOp_of_more (h : InSequence cd s.host.seg) (hcd : cd ≠ 0) :
    blockReceivedOp b t s = { s with
      host.seg := { latched cd s.host.seg with asm := s.host.seg.asm ++ d }
      host.ctl := .call (.receiveBlock (BitVec.ofNat 8 b) t false) :: .blockReceived b t :: s.host.ctl } :=
  (blockReceivedOp_of_received hres b t).trans ((if_pos h).trans (if_neg hcd))

end

/-! ## The round trip (R136) -/

/-- What `RECEIVE_PACKET` holds after the first `i` of the `n` blocks of a packet, from a state with log `l`: their data in order, the
count latched from the first of them, nothing logged. -/
def Assembled (payload : Bytes) (b n i : Nat) (l : List LogEvent) (u : State) : Prop :=
  u.host.seg.asm = payload.take (i * (b - 2)) ∧ u.host.seg.nread = i ∧ (0 < i → u.host.seg.expcnt = n) ∧ u.log = l

/-- The loop of `RECEIVE_PACKET` given one block more. -/
theorem feedBlocks_append_one (b t : Nat) (k : List Task) (qs : List (Byte × Bytes)) (q : Byte × Bytes) (s : State) :
    feedBlocks b t k (qs ++ [q]) s =
      blockReceivedOp b t { feedBlocks b t k qs s with host.res := .received q.1 q.2, host.ctl := k } := by
  simp [feedBlocks]

section
variable {payload : Bytes} {b n i : Nat} {l : List LogEvent} {u : State} (h : Assembled payload b n i l u) (hn : n ≤ 256) (hi : i < n)
include h hn hi

/-- After `i` blocks, block `i` of the packet is in sequence. -/
theorem Assembled.inSequence : InSequence (countdownOf n i) u.host.seg := by
  obtain ⟨-, hnread, hexpcnt, -⟩ := h
  rw [InSequence, countdownOf_toNat hn, hnread]
  rcases Nat.eq_zero_or_pos i with hzero | hpos
  · exact .inl hzero
  · rw [hexpcnt hpos]
    omega

/-- The count latched at the first block is `NBLK`, and stays. -/
theorem Assembled.latched_expcnt : (latched (countdownOf n i) u.host.seg).expcnt = n := by
  obtain ⟨-, hnread, hexpcnt, -⟩ := h
  simp only [latched, hnread, countdownOf_toNat hn]
  split
  · omega
  next hpos => exact hexpcnt (Nat.pos_of_ne_zero hpos)

/-- The next block keeps the assembly, and the last one answers with it. -/
theorem Assembled.blockReceived (hres : u.host.res = .received (countdownOf n i) (blockData payload b i)) (t : Nat) :
    Assembled payload b n (i + 1) l (blockReceivedOp b t u) ∧
    (i + 1 = n → (blockReceivedOp b t u).host.res = .packet (payload.take (n * (b - 2))) ∧
      (blockReceivedOp b t u).host.ctl = u.host.ctl) := by
  have hseq := h.inSequence hn hi
  have hlatch := h.latched_expcnt hn hi
  obtain ⟨hasm, hnread, -, hlog⟩ := h
  have hdata : u.host.seg.asm ++ blockData payload b i = payload.take ((i + 1) * (b - 2)) := by
    rw [hasm, take_append_blockData]
  have hcount : (latched (countdownOf n i) u.host.seg).nread = i + 1 := congrArg Nat.succ hnread
  by_cases hlast : i + 1 = n
  · rw [blockReceivedOp_of_last hres b t hseq ((countdownOf_eq_zero_iff hn hi).mpr hlast)]
    exact ⟨⟨hdata, hcount, fun _ => hlatch, hlog⟩, fun _ => ⟨by rw [hdata, hlast], rfl⟩⟩
  · rw [blockReceivedOp_of_more hres b t hseq (mt (countdownOf_eq_zero_iff hn hi).mp hlast)]
    exact ⟨⟨hdata, hcount, fun _ => hlatch, hlog⟩, fun hend => absurd hend hlast⟩

end

/-- The induction of R136 over the blocks presented. -/
theorem feedBlocks_assembled {payload : Bytes} {s : State} (hasm : s.host.seg.asm = []) (hnread : s.host.seg.nread = 0)
    (b t : Nat) (k : List Task) {n : Nat} (hn : n ≤ 256) (i : Nat) (hi : i ≤ n) :
    ∀ u, u = feedBlocks b t k ((List.range i).map fun j => (countdownOf n j, blockData payload b j)) s →
      Assembled payload b n i s.log u ∧
      (0 < i → i = n → u.host.res = .packet (payload.take (n * (b - 2))) ∧ u.host.ctl = k) := by
  induction i with
  | zero =>
    rintro u rfl
    exact ⟨⟨by simpa [feedBlocks] using hasm, hnread, nofun, rfl⟩, nofun⟩
  | succ i ih =>
    rintro u rfl
    rw [List.range_succ, List.map_append, List.map_singleton, feedBlocks_append_one]
    obtain ⟨hbefore, -⟩ := ih (Nat.le_of_succ_le hi) _ rfl
    obtain ⟨hafter, hdone⟩ := Assembled.blockReceived (u := { feedBlocks b t k _ s with
      host.res := .received (countdownOf n i) (blockData payload b i), host.ctl := k }) hbefore hn hi rfl t
    exact ⟨hafter, fun _ => hdone⟩

end Sys2Proof.Machine
end

section
/-! The segmentation engine of `41_segmentation.md`: its blocks, what it sends and receives, and the round trip of a packet. -/

namespace Sys2Proof.Machine

/-- Settles O40: after all its blocks the packet is assembled (`feedBlocks_assembled`), and the blocks cover the payload
(`le_blockCount_mul`). -/
theorem segmentationRoundTrip : Obligations.SegmentationRoundTrip := by
  unfold Obligations.SegmentationRoundTrip
  intro payload b t k s hne hb hfit hasm hnread u hu
  have hn : blockCount payload.length b ≤ 256 := (blockCount_le_iff hb _ _).mpr hfit
  have hpos : 0 < blockCount payload.length b :=
    Nat.pos_of_ne_zero fun h => hne (List.length_eq_zero_iff.mp ((blockCount_eq_zero_iff hb _).mp h))
  obtain ⟨⟨-, hcount, -, hlog⟩, hdone⟩ := feedBlocks_assembled hasm hnread b t k hn _ le_rfl u hu
  obtain ⟨hres, hctl⟩ := hdone hpos rfl
  rw [List.take_of_length_le (le_blockCount_mul hb _)] at hres
  exact ⟨hres, hcount.trans (blockCount_eq_add_sub_div hb _), hctl, hlog⟩

/-- Settles O35: what is sent is `sendCommandOp_of_fits`; the answer's tests are those of `classifyAnswer_tx`. -/
theorem sendBlockRoundTrip : Obligations.SendBlockRoundTrip := by
  unfold Obligations.SendBlockRoundTrip
  refine fun s k => ⟨fun cd chunk hfit => ?sent, fun hctl => ⟨hostTimeout_block (.inl rfl) hctl, fun code p res l h => ?answered⟩⟩
  case sent =>
    have hfit' : (cd :: chunk).length ≤ 255 := Nat.succ_le_succ hfit
    obtain ⟨size, hsize, -, hblock⟩ := exists_blockBytes_eq hfit'
    refine ⟨size, hsize, ?_⟩
    have hexec : exec (.sendBlock cd chunk) s = .next (sendBlockOp cd chunk s) := if_pos hfit
    rw [hexec, sendBlockOp, sendCommandOp_of_fits .tx hfit', hblock]
    rfl
  case answered =>
    have hanswer : (res, l) = (classifyAnswer .tx code p, failureLog (classifyAnswer .tx code p)) := by
      rw [h, classifyAnswer_tx]
      split_ifs <;> rfl
    obtain ⟨rfl, rfl⟩ := Prod.mk.inj hanswer
    rw [exec_decodeReply, hostAnswer_tx hctl, answerTx, endExchange_eq]
    rfl

/-- Settles O36: what is sent is `sendCommandOp_of_fits`; the answer's tests are those of `receiveResult_eq` and `readDataShape_eq`. -/
theorem receiveBlockRoundTrip : Obligations.ReceiveBlockRoundTrip := by
  unfold Obligations.ReceiveBlockRoundTrip
  refine fun s k => ⟨fun b t hlow hhigh => ?sent, fun hctl => ⟨hostTimeout_block (.inr rfl) hctl, fun code p res l _ h => ?answered⟩⟩
  case sent =>
    have hexec (skip : Bool) : exec (.receiveBlock b t skip) s = .next (receiveBlockOp b t skip s) :=
      if_pos ((blockSizeOk_iff _).mpr ⟨hlow, hhigh⟩)
    refine ⟨hexec true, (hexec false).trans ?_⟩
    rw [receiveBlockOp, if_neg Bool.false_ne_true, sendCommandOp_of_fits .rx (by simp)]
    rfl
  case answered =>
    have hanswer : (res, l) = (receiveResult code p, failureLog (receiveResult code p)) := by
      rw [h, receiveResult_eq, readDataShape_eq]
      split_ifs <;> rfl
    obtain ⟨rfl, rfl⟩ := Prod.mk.inj hanswer
    rw [exec_decodeReply, hostAnswer_rx hctl, answerRx, endExchange_eq]
    rfl

/-- Settles O37: the count by `blockCount_le_iff`, the payload by `flatten_packetBlocks`, each block by `packetBlocks_getElem?`. -/
theorem segmentsCoverThePayload : Obligations.SegmentsCoverThePayload := by
  unfold Obligations.SegmentsCoverThePayload
  rintro payload b hb hfit n rfl
  refine ⟨le_blockCount_mul hb _, fun q => (blockCount_le_iff hb _ q).mpr, packetBlocks_length payload b,
    flatten_packetBlocks hb payload, fun i hi => ⟨_, packetBlocks_getElem? hi, countdownOf_toNat hfit i, ?_⟩⟩
  exact ⟨blockData_length_of_not_last hb, blockData_length_pos hb hi, blockData_length_le payload b i⟩

/-- Settles O38: the call by `execSendPacket_of_fits`, a block by `packetBlocks_getElem?`, what follows its answer by the equations of
`packetSentOp`. -/
theorem sendPacketSendsEveryBlock : Obligations.SendPacketSendsEveryBlock := by
  unfold Obligations.SendPacketSendsEveryBlock
  intro payload b delay s
  refine ⟨fun hbad => ?refused, fun hlow hhigh hcount => ?begun, fun hidx hnblk hlow hhigh => ?block,
    fun h => congrArg _ (packetSentOp_of_failed h payload b delay),
    fun h hmore => congrArg _ (packetSentOp_of_more h hmore payload b delay),
    fun h hlast => congrArg _ (packetSentOp_of_last h hlast payload b delay)⟩
  case refused =>
    refine execSendPacket_of_not_fits (Bool.eq_false_iff.mpr fun hfits => ?_) delay s
    rw [packetFits_iff] at hfits
    omega
  case begun =>
    have hexec : exec (.sendPacket payload b delay) s = _ :=
      execSendPacket_of_fits ((packetFits_iff payload b).mpr ⟨hlow, hhigh, hcount⟩) delay s
    have hzero : blockCount payload.length b = 0 ↔ payload = [] :=
      (blockCount_eq_zero_iff hlow _).trans List.length_eq_zero_iff
    exact ⟨fun hempty => hexec.trans (if_pos (hzero.mpr hempty)),
      fun hne => ⟨_, hexec.trans (if_neg (mt hzero.mp hne)), rfl⟩⟩
  case block =>
    refine ⟨_, _, packetBlocks_getElem? hidx, rfl, ?_⟩
    have hchunk := blockData_length_le payload b s.host.seg.idx
    rw [← hnblk]
    exact if_pos (hchunk.trans (by omega))

/-- Settles O39: the call, then the three ways a received block is taken, by the equations of `blockReceivedOp`. -/
theorem receivePacketReassembles : Obligations.ReceivePacketReassembles := by
  unfold Obligations.ReceivePacketReassembles
  intro b t1 t2 armed s
  refine ⟨fun hbad => if_pos (Bool.eq_false_iff.mpr fun hok => ?refused), fun hlow hhigh => if_neg ?begun,
    fun h => congrArg _ (blockReceivedOp_of_failed h b t2), fun cd d hres seg hseg => ?received⟩
  case refused =>
    rw [blockSizeOk_iff] at hok
    omega
  case begun => simp [(blockSizeOk_iff b).mpr ⟨hlow, hhigh⟩]
  case received =>
    obtain rfl : seg = latched cd s.host.seg := hseg
    exact ⟨fun hnread hcount => congrArg _ (blockReceivedOp_of_gap hres b t2 (not_or.mpr ⟨hnread, hcount⟩)),
      fun hseq => ⟨fun hcd => congrArg _ (blockReceivedOp_of_last hres b t2 hseq hcd),
        fun hcd => congrArg _ (blockReceivedOp_of_more hres b t2 hseq hcd)⟩⟩

end Sys2Proof.Machine
end

section
/-! SUPPORT. The streamer's table (R150): what each accepted input runs, that the others change nothing, and what the transitions leave:
the registers, the status blocks, each next state, and the counters. -/

namespace Sys2Proof.Machine

/-! ## The table (R150, R160, R163) -/

/-- An event instruction and `STR_STEP` on the event run the same transition function (R82, R150). -/
theorem exec_of_event {i : Instr} {ev : Event} (h : i = eventInstr ev ∨ i = .strStep ev) (s : State) :
    exec i s = strStepOp ev s := by
  rcases h with rfl | rfl
  · cases ev <;> rfl
  · rfl

theorem armedEdge_of {x : Line} {falling : Bool} {s : State} (hie : ieOf x s = true) (hies : iesOf x s = falling) :
    armedEdge x falling s = true := by
  simp [armedEdge, hie, hies]

section
variable {s : State}

theorem strStepOp_txStart (hm : s.dev.str.mode = .idle) (p : Bytes) : strStepOp (.txStart p) s = txSetup p s := by
  simp [strStepOp, hm]

theorem strStepOp_rxStart (hm : s.dev.str.mode = .idle) (rxlen : Byte) :
    strStepOp (.rxStart rxlen) s = .next (rxSetup rxlen s) := by
  simp [strStepOp, hm]

theorem strStepOp_pktRise (hm : s.dev.str.mode ≠ .idle) (he : armedEdge .pkt false s = true) :
    strStepOp .pktRise s = .next (syncSeen s) := by
  cases hmode : s.dev.str.mode with
  | idle => exact absurd hmode hm
  | txStreaming | rxStreaming => simp [strStepOp, hmode, he]

theorem strStepOp_pktFall_tx (hm : s.dev.str.mode = .txStreaming) (he : armedEdge .pkt true s = true) :
    strStepOp .pktFall s = .next (txEnd s) := by
  simp [strStepOp, hm, he]

theorem strStepOp_pktFall_rx (hm : s.dev.str.mode = .rxStreaming) (he : armedEdge .pkt true s = true) :
    strStepOp .pktFall s = rxEnd s := by
  simp [strStepOp, hm, he]

theorem strStepOp_thrRise (hm : s.dev.str.mode = .rxStreaming) (he : armedEdge .thr false s = true) :
    strStepOp .thrRise s = drain s := by
  simp [strStepOp, hm, he]

theorem strStepOp_thrFall (hm : s.dev.str.mode = .txStreaming) (he : armedEdge .thr true s = true) :
    strStepOp .thrFall s = refill s := by
  simp [strStepOp, hm, he]

/-- The cells "ignored" of R150's table: the mode does not expect the input, or the edge is not armed. -/
theorem strStepOp_of_not_accepted {ev : Event} (h : accepted ev s = false) : strStepOp ev s = .next s := by
  cases ev with
  | txStart | rxStart =>
    cases hm : s.dev.str.mode with
    | idle => simp [accepted, hm] at h
    | txStreaming | rxStreaming => simp [strStepOp, hm]
  | pktRise | pktFall =>
    cases hm : s.dev.str.mode with
    | idle => simp [strStepOp, hm]
    | txStreaming | rxStreaming =>
      simp only [accepted, hm, ne_eq, reduceCtorEq, not_false_eq_true, decide_true, Bool.true_and] at h
      simp [strStepOp, hm, h]
  | thrRise =>
    cases hm : s.dev.str.mode with
    | idle | txStreaming => simp [strStepOp, hm]
    | rxStreaming =>
      simp only [accepted, hm, decide_true, Bool.true_and] at h
      simp [strStepOp, hm, h]
  | thrFall =>
    cases hm : s.dev.str.mode with
    | idle | rxStreaming => simp [strStepOp, hm]
    | txStreaming =>
      simp only [accepted, hm, decide_true, Bool.true_and] at h
      simp [strStepOp, hm, h]
  | cancel => simp [accepted] at h

end

/-- However a transmission is started in `IDLE`, by the event or by the TX command of an initialised device, it is set up (R106). -/
theorem exec_txStart_of {i : Instr} {p : Bytes} {s : State} (hm : s.dev.str.mode = .idle)
    (hi : i = .evTxStart p ∨ i = .strStep (.txStart p) ∨
      ((i = .tx p ∨ i = .devDispatch 0x02 p) ∧ p ≠ [] ∧ s.dev.inited = true)) :
    exec i s = txSetup p s := by
  rw [← strStepOp_txStart hm]
  rcases hi with rfl | rfl | ⟨hi, hne, hinit⟩
  · rfl
  · rfl
  · have htx : execTx p s = strStepOp (.txStart p) s := if_neg (by simp [hne, hinit, hm])
    rcases hi with rfl | rfl <;> exact htx

/-- However a reception is started in `IDLE`, by the event or by the RX command of an initialised device, it is set up (R107). -/
theorem exec_rxStart_of {i : Instr} {b : Byte} {s : State} (hm : s.dev.str.mode = .idle)
    (hi : i = .evRxStart b ∨ i = .strStep (.rxStart b) ∨ ((i = .rx [b] ∨ i = .devDispatch 0x03 [b]) ∧ s.dev.inited = true)) :
    exec i s = .next (rxSetup b s) := by
  rw [← strStepOp_rxStart hm]
  rcases hi with rfl | rfl | ⟨hi, hinit⟩
  · rfl
  · rfl
  · have hrx : execRx [b] s = strStepOp (.rxStart b) s := if_neg (by simp [hinit, hm])
    rcases hi with rfl | rfl <;> exact hrx

/-! ## The registers -/

@[simp] theorem otherBits_self (p : Params) (v : Byte) : otherBits p v v := fun _ _ _ => rfl

@[simp] theorem otherBits_withBit_pkt (p : Params) (v w : Byte) (b : Bool) :
    otherBits p v (withBit w p.pktBit b) ↔ otherBits p v w :=
  forall_congr' fun n => ⟨fun h hp ht => by simpa [hp] using h hp ht, fun h hp ht => by simpa [hp] using h hp ht⟩

@[simp] theorem otherBits_withBit_thr (p : Params) (v w : Byte) (b : Bool) :
    otherBits p v (withBit w p.thrBit b) ↔ otherBits p v w :=
  forall_congr' fun n => ⟨fun h hp ht => by simpa [ht] using h hp ht, fun h hp ht => by simpa [ht] using h hp ht⟩

@[simp] theorem otherBits_clearLines (p : Params) (v w : Byte) : otherBits p v (clearLines p w) ↔ otherBits p v w :=
  (otherBits_withBit_thr ..).trans (otherBits_withBit_pkt ..)

/-- A change of the threshold line's level writes no flag bit that belongs to no line (R34, R292). -/
theorem otherBits_updateThr_ifg (s : State) : otherBits s.par s.dev.gpio.ifg (updateThr s).dev.gpio.ifg :=
  fun n _ hthr => (updateThr_ifg_other s n hthr).symm

/-- The threshold line already has its level (R301). -/
theorem updateThr_of_pinOf {s : State} (h : pinOf .thr s = thrLevel s) : updateThr s = s := if_pos h

/-- A change of the FIFOs whose edge is cleared at once leaves a trace in the threshold line's level alone (R292, R301). -/
theorem setIfg_updateThr (s : State) :
    setIfg .thr false (updateThr s) =
      { s with
        dev.gpio.pin := withBit s.dev.gpio.pin s.par.thrBit (thrLevel s)
        dev.gpio.ifg := withBit s.dev.gpio.ifg s.par.thrBit false } := by
  simp [setIfg]

/-- The same when both lines are stopped after it (R166). -/
theorem stopLinesOp_updateThr (s : State) :
    stopLinesOp (updateThr s) =
      { s with
        dev.gpio.pin := withBit s.dev.gpio.pin s.par.thrBit (thrLevel s)
        dev.gpio.ie := clearLines s.par s.dev.gpio.ie
        dev.gpio.ifg := clearLines s.par s.dev.gpio.ifg } := by
  simp [stopLinesOp_eq]

/-! ## The ends of an operation (R155, R158, R161) -/

/-- All a status report does that is made after a change `u` of the radio and its lines: `OUTQ` and the count of free reads are as
before the change. -/
theorem composeStatusOp_after {s u : State} (houtq : u.dev.outq = s.dev.outq) (hfree : u.freeCtr = s.freeCtr) (ty : BlockType)
    (st : Byte) :
    ∃ r, RegistersRead u r ∧ composeStatusOp ty st u =
      { u with dev.outq := s.dev.outq ++ [statusBlock ty st u r], freeCtr := s.freeCtr + 4 } := by
  rw [← houtq, ← hfree]
  exact composeStatusOp_eq ty st u

/-- The reports of an error are made after the flush (R155, R158, R284). -/
theorem reportTxError_eq (st : Byte) (s : State) :
    ∃ r, RegistersRead (strobeFlushTx s) r ∧ reportTxError st s =
      { strobeFlushTx s with
        dev.outq := s.dev.outq ++ [statusBlock .txKo st (strobeFlushTx s) r]
        freeCtr := s.freeCtr + 4 } :=
  composeStatusOp_after (strobeFlushTx_outq s) (strobeFlushTx_freeCtr s) .txKo st

theorem reportRxOverflow_eq (s : State) :
    ∃ r, RegistersRead (strobeFlushRx s) r ∧ reportRxOverflow s =
      { strobeFlushRx s with
        dev.outq := s.dev.outq ++ [statusBlock .rxKo 0x03 (strobeFlushRx s) r]
        freeCtr := s.freeCtr + 4 } :=
  composeStatusOp_after (strobeFlushRx_outq s) (strobeFlushRx_freeCtr s) .rxKo 0x03

/-- The same report at the end of an operation: after it the lines are stopped and the mode is `IDLE`. -/
theorem endWithStatus_after {s u : State} (hpar : u.par = s.par) (houtq : u.dev.outq = s.dev.outq) (hfree : u.freeCtr = s.freeCtr)
    (ty : BlockType) (st : Byte) :
    ∃ r, RegistersRead u r ∧ setMode .idle (stopLinesOp (composeStatusOp ty st u)) =
      { u with
        dev.str.mode := .idle
        dev.outq := s.dev.outq ++ [statusBlock ty st u r]
        dev.gpio.ie := clearLines s.par u.dev.gpio.ie
        dev.gpio.ifg := clearLines s.par u.dev.gpio.ifg
        freeCtr := s.freeCtr + 4 } := by
  obtain ⟨r, hr, heq⟩ := composeStatusOp_after houtq hfree ty st
  refine ⟨r, hr, ?_⟩
  rw [heq, stopLinesOp_eq, ← hpar]
  rfl

/-- The status of an ended transmission, read off the radio (R86, R155). -/
theorem txStatus_eq (s : State) :
    txStatus (radioStatusOf s) = if s.radio.txUnf then 0x01 else if s.radio.txFifo ≠ [] then 0x02 else 0x00 := by
  simp only [txStatus, radioStatusOf, txCount, gt_iff_lt, List.length_pos_iff]
  rfl

/-- A transmission that ends without an error is acked (R155). -/
theorem txEnd_of_ok {s : State} (h : txStatus (radioStatusOf s) = 0x00) :
    txEnd s = setMode .idle (stopLinesOp (composeStatusOp .tx 0x00 (bumpPktFall s))) :=
  congrArg (fun t => setMode .idle (stopLinesOp t)) (if_pos h)

/-- A transmission that ends in an error is reported after the flush (R155). -/
theorem txEnd_of_error {s : State} (h : txStatus (radioStatusOf s) ≠ 0x00) :
    txEnd s = setMode .idle (stopLinesOp
      (composeStatusOp .txKo (txStatus (radioStatusOf s)) (strobeFlushTx (bumpPktFall s)))) :=
  congrArg (fun t => setMode .idle (stopLinesOp t)) (if_neg h)

/-- With the RX FIFO empty, no overflow and the threshold line at its level there is nothing to flush (R63, R301). -/
theorem strobeFlushRx_of_empty {s : State} (hfifo : s.radio.rxFifo = []) (hovf : s.radio.rxOvf = false)
    (hpin : pinOf .thr s = thrLevel s) : strobeFlushRx s = s := by
  have hradio : { s.radio with rxFifo := [], rxOvf := false } = s.radio := by rw [← hfifo, ← hovf]
  unfold strobeFlushRx
  rw [hradio]
  exact updateThr_of_pinOf hpin

/-- The end of a reception without an overflow: what does not fit `RXCAP` is flushed, so no byte is left in the RX FIFO (R158). -/
theorem rxEnd_flushes (s : State) (n : Nat) (h : s.radio.rxOvf = false) (hn : n = min (rxCount s) (rxRoom s)) :
    rxEnd s = .next (setMode .idle (stopLinesOp (composeDataOp .rx (s.dev.str.rxbuf ++ s.radio.rxFifo.take n)
      (strobeFlushRx (appendRxBuf (s.radio.rxFifo.take n) (updateThr (dropRxFifo n (bumpPktFall s)))))))) := by
  have hflush : ∀ u, u = appendRxBuf (s.radio.rxFifo.take n) (updateThr (dropRxFifo n (bumpPktFall s))) →
      (if rxCount u > 0 then strobeFlushRx u else u) = strobeFlushRx u := by
    rintro u rfl
    split
    · rfl
    next hempty =>
      exact (strobeFlushRx_of_empty (List.length_eq_zero_iff.mp (Nat.eq_zero_of_not_pos hempty)) (by simpa using h)
        (updateThr_pinOf (dropRxFifo n (bumpPktFall s)))).symm
  rw [rxEnd_of_no_overflow s n h hn]
  dsimp only
  rw [hflush _ rfl]
  simp

/-! ## What the transitions leave (R151 to R159) -/

/-- What `STR_STEP` can have changed are the streamer, `OUTQ`, the lines, the radio and the free counter. -/
theorem SameElsewhere.eq {s t : State} (h : SameElsewhere s t) {c : Str} {q : List Bytes} {g : Gpio} {r : Radio} {n : Nat}
    (hstr : t.dev.str = c) (houtq : t.dev.outq = q) (hgpio : t.dev.gpio = g) (hradio : t.radio = r) (hfree : t.freeCtr = n) :
    t = { s with dev.str := c, dev.outq := q, dev.gpio := g, radio := r, freeCtr := n } := by
  obtain ⟨hpar, hnow, hhost, hh2d, hd2h, hin, hout, hlog, hagenda, htrd, hparms, hinited, hgie⟩ := h
  exact state_ext hpar hnow hhost (devHalf_ext htrd houtq hparms hinited hstr hgpio hgie) hh2d hd2h hin hout hlog hradio hagenda hfree

/-- A threshold line at its level, and every other line as it was (R301). -/
theorem pinOf_of_thrLevel {s t : State} (hne : s.par.pktBit ≠ s.par.thrBit) (hpar : t.par = s.par)
    (hpin : t.dev.gpio.pin = withBit s.dev.gpio.pin s.par.thrBit (thrLevel t)) :
    pinOf .thr t = thrLevel t ∧ pinOf .pkt t = pinOf .pkt s := by
  simp [pinOf, hpar, hpin, hne]

/-- All `TX_START` leaves when its first bytes fit (R151). -/
theorem txSetup_started {s : State} (hne : s.par.pktBit ≠ s.par.thrBit) (hm : s.dev.str.mode = .idle) {p : Bytes}
    (hf : fitsTxFifo (txHead p s) s) : ∃ t, txSetup p s = .next t ∧ TxStarted p s t := by
  refine ⟨_, txSetup_of_fits p s hf, ?_, ?_, ?_, ?_, ?_⟩
  · have hsame := strStepOp_elsewhere ((strStepOp_txStart hm p).trans (txSetup_of_fits p s hf))
    exact hsame.eq (by apply str_ext <;> simp) (by simp) rfl (by simp) (by simp)
  · refine ⟨by simp [ieOf, hne], ?_, by simp [ifgOf, hne], by simp [pinOf, hne]⟩
    unfold iesOf
    rw [strobeStartTx_dev, setMode_gpio, txArm_ies]
    split <;> simp [hne]
  · have hpin := updateThr_pinOf (pushTxFifo (txHead p s) (setTxBuf p (zeroCounters s)))
    exact ⟨by simp [ifgOf], by simpa [pinOf, thrLevel] using hpin⟩
  · split
    next hmore => simp [ieOf, iesOf, hmore]
    next hall => simp [ieOf, iesOf, hall, Ne.symm hne]
  · have hifg := otherBits_updateThr_ifg (pushTxFifo (txHead p s) (setTxBuf p (zeroCounters s)))
    refine ⟨by simp, by simpa using hifg, by simp, ?_⟩
    rw [strobeStartTx_dev, setMode_gpio, txArm_ies]
    split <;> simp

/-- All `RX_START` leaves (R152). -/
theorem rxSetup_started {s : State} (hne : s.par.pktBit ≠ s.par.thrBit) (hm : s.dev.str.mode = .idle) (b : Byte) :
    RxStarted b s (rxSetup b s) := by
  refine ⟨?_, fun x => ?_, by simp [GpioOthers]⟩
  · exact (strStepOp_elsewhere (strStepOp_rxStart hm b)).eq (rxSetup_str b s) (rxSetup_outq b s) rfl (rxSetup_radio b s)
      (rxSetup_freeCtr b s)
  · cases x <;> simp [ieOf, iesOf, ifgOf, pinOf, hne]

/-- The state a refill that fits leaves, field by field (R153). -/
theorem refill_eq {s : State} (hf : fitsTxFifo (txNext s) s) :
    refill s = .next { s with
      dev.str.cntThrFall := s.dev.str.cntThrFall + 1
      dev.str.txpos := s.dev.str.txpos + refillSize s
      dev.gpio.pin := withBit s.dev.gpio.pin s.par.thrBit (thrLevel (pushTxFifo (txNext s) s))
      dev.gpio.ifg := withBit s.dev.gpio.ifg s.par.thrBit false
      dev.gpio.ie := if s.dev.str.txpos + refillSize s = s.dev.str.txlen then withBit s.dev.gpio.ie s.par.thrBit false
        else s.dev.gpio.ie
      radio.txFifo := s.radio.txFifo ++ txNext s } := by
  have hlast (n : Nat) (u : State) : setIfg .thr false (setTxPos n u) = setTxPos n (setIfg .thr false u) := rfl
  rw [refill_of_fits s hf]
  dsimp only
  rw [hlast, setIfg_updateThr]
  split_ifs <;> rfl

/-- The state a drain leaves, field by field (R156). -/
theorem drain_eq {s : State} {n : Nat} (hn : n = min s.par.rxChunk (min (rxCount s) (rxRoom s))) :
    drain s = .next { s with
      dev.str.cntThrRise := s.dev.str.cntThrRise + 1
      dev.str.rxbuf := s.dev.str.rxbuf ++ s.radio.rxFifo.take n
      dev.gpio.pin := withBit s.dev.gpio.pin s.par.thrBit (thrLevel (dropRxFifo n s))
      dev.gpio.ifg := withBit s.dev.gpio.ifg s.par.thrBit false
      radio.rxFifo := s.radio.rxFifo.drop n } := by
  have hlast (b : Bytes) (u : State) : setIfg .thr false (appendRxBuf b u) = appendRxBuf b (setIfg .thr false u) := rfl
  rw [drain_next s n hn, hlast, setIfg_updateThr]
  rfl

/-- The state the end of a reception without an overflow leaves, field by field (R158). -/
theorem rxEnd_eq {s : State} {n : Nat} (hovf : s.radio.rxOvf = false) (hn : n = min (rxCount s) (rxRoom s)) :
    rxEnd s = .next { s with
      dev.str.cntPktFall := s.dev.str.cntPktFall + 1
      dev.str.rxbuf := s.dev.str.rxbuf ++ s.radio.rxFifo.take n
      dev.str.mode := .idle
      dev.outq := s.dev.outq ++ [blockBytes 0x03 (s.dev.str.rxbuf ++ s.radio.rxFifo.take n)]
      dev.gpio.pin := withBit s.dev.gpio.pin s.par.thrBit (thrLevel { s with radio.rxFifo := [] })
      dev.gpio.ie := clearLines s.par s.dev.gpio.ie
      dev.gpio.ifg := clearLines s.par s.dev.gpio.ifg
      radio.rxFifo := [] } := by
  have hlast (b : Bytes) (u : State) : stopLinesOp (composeDataOp .rx b u) = composeDataOp .rx b (stopLinesOp u) := rfl
  have hdrained := clearLines_updateThr_ifg (dropRxFifo n (bumpPktFall s))
  rw [rxEnd_flushes s n hovf hn, hlast, strobeFlushRx, stopLinesOp_updateThr]
  refine congrArg Host.Outcome.next (SameElsewhere.eq ?_ ?_ ?_ ?_ ?_ ?_)
  · simp [SameElsewhere, composeDataOp]
  · apply str_ext <;> simp [composeDataOp]
  · simp [composeDataOp, typeCode]
  · exact gpio_ext (by simp [composeDataOp, thrLevel]) (by simpa [composeDataOp] using hdrained) (by simp [composeDataOp])
      (by simp [composeDataOp])
  · simp [composeDataOp, hovf]
  · simp [composeDataOp]

/-- All `CANCEL` leaves (R159). -/
theorem cancelStep_cancelled {s : State} (hne : s.par.pktBit ≠ s.par.thrBit) : Cancelled s (cancelStep s) := by
  refine ⟨?_, fun x => ?_, ?_⟩
  · exact (strStepOp_elsewhere (ev := .cancel) rfl).eq (cancelStep_str s) (cancelStep_outq s) rfl (cancelStep_radio s)
      (cancelStep_freeCtr s)
  · exact ⟨by cases x <;> simp [ieOf], by simp [iesOf], by cases x <;> simp [pinOf], cancelStep_ifgOf s hne x⟩
  · exact ⟨by simp, fun n hp ht => (cancelStep_ifg_other s n hp ht).symm, by simp, by simp⟩

/-! ## The counters (R164) -/

/-- Of the four counters only that of the event moves. -/
def CountsOnly (ev : Event) (s t : State) : Prop :=
  (t.dev.str.cntPktRise = if ev = .pktRise then s.dev.str.cntPktRise + 1 else s.dev.str.cntPktRise) ∧
  (t.dev.str.cntPktFall = if ev = .pktFall then s.dev.str.cntPktFall + 1 else s.dev.str.cntPktFall) ∧
  (t.dev.str.cntThrRise = if ev = .thrRise then s.dev.str.cntThrRise + 1 else s.dev.str.cntThrRise) ∧
  (t.dev.str.cntThrFall = if ev = .thrFall then s.dev.str.cntThrFall + 1 else s.dev.str.cntThrFall)

/-- The four counters are zero. -/
def CountersZero (t : State) : Prop :=
  t.dev.str.cntPktRise = 0 ∧ t.dev.str.cntPktFall = 0 ∧ t.dev.str.cntThrRise = 0 ∧ t.dev.str.cntThrFall = 0

theorem txSetup_countersZero (p : Bytes) (s : State) : Runs CountersZero (txSetup p s) := by
  by_cases hf : fitsTxFifo (txHead p s) s
  · rw [txSetup_of_fits p s hf]; simp [Runs, CountersZero]
  · rw [txSetup_of_not_fits p s hf]; trivial

theorem txEnd_countsOnly (s : State) : CountsOnly .pktFall s (txEnd s) := by
  by_cases h : txStatus (radioStatusOf s) = 0x00
  · rw [txEnd_of_ok h]; simp [CountsOnly, stopLinesOp_eq, composeStatusOp]
  · rw [txEnd_of_error h]; simp [CountsOnly, stopLinesOp_eq, composeStatusOp]

theorem rxEnd_countsOnly (s : State) : Runs (CountsOnly .pktFall s) (rxEnd s) := by
  cases hovf : s.radio.rxOvf with
  | true => rw [rxEnd_of_overflow s hovf]; simp [Runs, CountsOnly, stopLinesOp_eq, reportRxOverflow, composeStatusOp]
  | false => rw [rxEnd_eq hovf rfl]; simp [Runs, CountsOnly]

theorem drain_countsOnly (s : State) : Runs (CountsOnly .thrRise s) (drain s) := by
  rw [drain_eq rfl]; simp [Runs, CountsOnly]

theorem refill_countsOnly (s : State) : Runs (CountsOnly .thrFall s) (refill s) := by
  by_cases hf : fitsTxFifo (txNext s) s
  · rw [refill_eq hf]; simp [Runs, CountsOnly]
  · rw [refill_of_not_fits s hf]; trivial

/-- Every accepted input but the two starts moves its own counter and no other (R164). -/
theorem strStepOp_countsOnly {ev : Event} {s : State} (ha : accepted ev s = true)
    (hstart : ¬((∃ p, ev = .txStart p) ∨ ∃ b, ev = .rxStart b)) : Runs (CountsOnly ev s) (strStepOp ev s) := by
  cases ev with
  | txStart p => exact absurd (.inl ⟨p, rfl⟩) hstart
  | rxStart b => exact absurd (.inr ⟨b, rfl⟩) hstart
  | pktRise =>
    obtain ⟨hm, he⟩ : s.dev.str.mode ≠ .idle ∧ armedEdge .pkt false s = true := by simpa [accepted] using ha
    rw [strStepOp_pktRise hm he, syncSeen_eq]
    simp [Runs, CountsOnly]
  | pktFall =>
    obtain ⟨hstream, he⟩ : s.dev.str.mode ≠ .idle ∧ armedEdge .pkt true s = true := by simpa [accepted] using ha
    cases hm : s.dev.str.mode with
    | idle => exact absurd hm hstream
    | txStreaming => rw [strStepOp_pktFall_tx hm he]; exact txEnd_countsOnly s
    | rxStreaming => rw [strStepOp_pktFall_rx hm he]; exact rxEnd_countsOnly s
  | thrRise =>
    obtain ⟨hm, he⟩ : s.dev.str.mode = .rxStreaming ∧ armedEdge .thr false s = true := by simpa [accepted] using ha
    rw [strStepOp_thrRise hm he]; exact drain_countsOnly s
  | thrFall =>
    obtain ⟨hm, he⟩ : s.dev.str.mode = .txStreaming ∧ armedEdge .thr true s = true := by simpa [accepted] using ha
    rw [strStepOp_thrFall hm he]; exact refill_countsOnly s
  | cancel => simp [strStepOp, Runs, CountsOnly]

/-- A counter that moves on a condition, as a number (R164: "modulo 256"). -/
theorem toNat_of_counted {c : Prop} [Decidable c] {a b : Byte} (h : b = if c then a + 1 else a) :
    b.toNat = (a.toNat + if c then 1 else 0) % 256 := by
  subst h
  split <;> simp [Nat.mod_eq_of_lt a.isLt]

end Sys2Proof.Machine
end

section
/-! The FIFO streaming state machine of `42_streamer.md`: what each input does in the mode that expects it, and the status reports. -/

namespace Sys2Proof.Machine

/-- Settles O14: in every form the transmission is `txSetup` (`exec_txStart_of`), by whether the first bytes fit. -/
theorem txStartLoadsAndArms : Obligations.TxStartLoadsAndArms := by
  unfold Obligations.TxStartLoadsAndArms
  intro p s i hne hm hi
  rw [exec_txStart_of hm hi]
  exact ⟨txSetup_started hne hm, txSetup_of_not_fits p s⟩

/-- Settles O15: in every form the reception is `rxSetup` (`exec_rxStart_of`). -/
theorem rxStartArmsBothLines : Obligations.RxStartArmsBothLines := by
  unfold Obligations.RxStartArmsBothLines
  intro b s i hne hm hi
  exact ⟨_, exec_rxStart_of hm hi, rxSetup_started hne hm b⟩

/-- Settles O16, by `syncSeen_eq`. -/
theorem pktRiseWaitsForTheFall : Obligations.PktRiseWaitsForTheFall := by
  unfold Obligations.PktRiseWaitsForTheFall
  intro s i hi hm hie hies
  rw [exec_of_event (ev := .pktRise) hi, strStepOp_pktRise hm (armedEdge_of hie hies), syncSeen_eq]

/-- Settles O17, by whether the chunk fits (`refill_eq`). -/
theorem thrFallRefills : Obligations.ThrFallRefills := by
  unfold Obligations.ThrFallRefills
  intro s i hne hi hm hie hies
  rw [exec_of_event (ev := .thrFall) hi, strStepOp_thrFall hm (armedEdge_of hie hies)]
  refine ⟨fun hf => ⟨_, refill_eq hf, rfl, ?_⟩, refill_of_not_fits s⟩
  rw [← and_assoc]
  refine ⟨pinOf_of_thrLevel hne rfl rfl, by simp, by simp, ?_, by simp⟩
  dsimp only
  split <;> simp

/-- Settles O18: the report is made of the state after the flush, if there is one (`endWithStatus_after`). -/
theorem pktFallEndsTransmission : Obligations.PktFallEndsTransmission := by
  unfold Obligations.PktFallEndsTransmission
  rintro s i hi hm hie hies st ty u hst hty hu
  rw [← txStatus_eq] at hst
  rw [exec_of_event (ev := .pktFall) hi, strStepOp_pktFall_tx hm (armedEdge_of hie hies)]
  by_cases hok : st = 0x00
  · obtain rfl : ty = .tx := hty.trans (if_pos hok)
    obtain rfl : u = bumpPktFall s := hu.trans (if_pos hok)
    rw [txEnd_of_ok (hst.symm.trans hok), hok]
    obtain ⟨r, hr, heq⟩ := endWithStatus_after (s := s) (u := bumpPktFall s) rfl rfl rfl .tx 0x00
    exact ⟨r, hr, congrArg Host.Outcome.next heq⟩
  · obtain rfl : ty = .txKo := hty.trans (if_neg hok)
    obtain rfl : u = strobeFlushTx (bumpPktFall s) := hu.trans (if_neg hok)
    rw [txEnd_of_error (hst ▸ hok), ← hst]
    obtain ⟨r, hr, heq⟩ := endWithStatus_after (s := s) (u := strobeFlushTx (bumpPktFall s)) (strobeFlushTx_par _)
      (strobeFlushTx_outq _) (strobeFlushTx_freeCtr _) .txKo st
    exact ⟨r, hr, congrArg Host.Outcome.next heq⟩

/-- Settles O19, by `drain_eq`. -/
theorem thrRiseDrains : Obligations.ThrRiseDrains := by
  unfold Obligations.ThrRiseDrains
  intro s i hne hi hm hie hies n hn
  rw [exec_of_event (ev := .thrRise) hi, strStepOp_thrRise hm (armedEdge_of hie hies)]
  refine ⟨_, drain_eq hn, rfl, ?_⟩
  rw [← and_assoc]
  exact ⟨pinOf_of_thrLevel hne rfl rfl, by simp [GpioOthers]⟩

/-- Settles O20: an overflow is reported after the flush; else what is left after the drain is flushed (`rxEnd_eq`). -/
theorem pktFallEndsReception : Obligations.PktFallEndsReception := by
  unfold Obligations.PktFallEndsReception
  intro s i hne hi hm hie hies
  rw [exec_of_event (ev := .pktFall) hi, strStepOp_pktFall_rx hm (armedEdge_of hie hies)]
  refine ⟨fun hovf u v hv hu => ?overflow, fun hovf n hn => ?received⟩
  case overflow =>
    obtain rfl : u = strobeFlushRx (bumpPktFall s) := by rw [hu, hv]; rfl
    rw [rxEnd_of_overflow s hovf]
    obtain ⟨r, hr, heq⟩ := endWithStatus_after (s := s) (u := strobeFlushRx (bumpPktFall s)) (strobeFlushRx_par _)
      (strobeFlushRx_outq _) (strobeFlushRx_freeCtr _) .rxKo stCodeOverflow
    exact ⟨r, hr, congrArg Host.Outcome.next heq⟩
  case received =>
    refine ⟨_, rxEnd_eq hovf hn, rfl, ?_⟩
    rw [← and_assoc]
    exact ⟨pinOf_of_thrLevel hne rfl rfl, by simp [GpioOthers]⟩

/-- Settles O21: RX_CANCEL is the streamer's cancel, and the echo after it. -/
theorem cancelAbandonsTheOperation : Obligations.CancelAbandonsTheOperation := by
  unfold Obligations.CancelAbandonsTheOperation
  intro s hne
  have hecho : respond .rxCancel [] (cancelStep s) = { cancelStep s with dev.outq := s.dev.outq ++ [[0x04, 0x00]] } := by
    rw [← cancelStep_outq s]; rfl
  exact ⟨cancelStep s, cancelStep_cancelled hne, rfl, rfl, fun p =>
    ⟨congrArg Host.Outcome.next hecho, congrArg Host.Outcome.next hecho⟩⟩

/-- Settles O22, by `strStepOp_of_not_accepted` and `exec_of_event`. -/
theorem ignoredInputsChangeNothing : Obligations.IgnoredInputsChangeNothing := by
  unfold Obligations.IgnoredInputsChangeNothing
  exact fun ev s => ⟨strStepOp_of_not_accepted, exec_of_event (.inl rfl) s⟩

/-- Settles O23: an input that is not accepted leaves the counters, a setup zeroes them, and every other input moves its own
(`strStepOp_countsOnly`). -/
theorem countersCountAcceptedEdges : Obligations.CountersCountAcceptedEdges := by
  unfold Obligations.CountersCountAcceptedEdges
  intro ev s t (hstep : strStepOp ev s = .next t)
  cases ha : accepted ev s with
  | false =>
    obtain rfl : s = t := by simpa [strStepOp_of_not_accepted ha] using hstep
    refine .inr ⟨by simp, by simp, ?_⟩
    simp only [Bool.false_eq_true, and_false, if_false, Nat.add_zero]
    have hstay (b : Byte) : b.toNat = b.toNat % 256 := (Nat.mod_eq_of_lt b.isLt).symm
    exact ⟨hstay _, hstay _, hstay _, hstay _⟩
  | true =>
    by_cases hstart : (∃ p, ev = .txStart p) ∨ ∃ b, ev = .rxStart b
    · refine .inl ⟨hstart, rfl, ?_⟩
      rcases hstart with ⟨p, rfl⟩ | ⟨b, rfl⟩
      · rw [strStepOp_txStart (by simpa [accepted] using ha)] at hstep
        exact (txSetup_countersZero p s).of_next hstep
      · rw [strStepOp_rxStart (by simpa [accepted] using ha)] at hstep
        cases hstep
        simp
    · obtain ⟨hpr, hpf, htr, htf⟩ := (strStepOp_countsOnly ha hstart).of_next hstep
      obtain ⟨hntx, hnrx⟩ := not_or.mp hstart
      simp only [and_true]
      exact .inr ⟨hntx, hnrx, toNat_of_counted hpr, toNat_of_counted hpf, toNat_of_counted htr, toNat_of_counted htf⟩

/-- Settles O24, by `stopLinesOp_eq` and `composeStatusOp_eq`. -/
theorem stopAndCompose : Obligations.StopAndCompose := by
  unfold Obligations.StopAndCompose
  intro s ty st b
  refine ⟨congrArg Host.Outcome.next (stopLinesOp_eq s), fun hfit => ?data, ?status⟩
  case data =>
    obtain ⟨size, hsize, -, hblock⟩ := exists_blockBytes_eq hfit
    refine ⟨size, hsize, ?_⟩
    rw [← hblock]
    rfl
  case status =>
    obtain ⟨r, hr, heq⟩ := composeStatusOp_eq ty st s
    exact ⟨r, hr, congrArg Host.Outcome.next heq⟩

/-- Settles O25: each report is made of the state after the flush, if there is one (`composeStatusOp_after`). -/
theorem statusCodesReport : Obligations.StatusCodesReport := by
  unfold Obligations.StatusCodesReport
  intro s
  refine ⟨?ok, fun u v hv hu => ?txError, fun u v hv hu => ?rxError⟩
  case ok =>
    obtain ⟨r, hr, heq⟩ := composeStatusOp_eq .tx stCodeOk s
    exact ⟨r, hr, congrArg Host.Outcome.next heq⟩
  case txError =>
    obtain rfl : u = strobeFlushTx s := by rw [hu, hv]; rfl
    obtain ⟨r, hr, heq⟩ := reportTxError_eq 0x01 s
    obtain ⟨r', hr', heq'⟩ := reportTxError_eq 0x02 s
    exact ⟨⟨r, hr, congrArg Host.Outcome.next heq⟩, ⟨r', hr', congrArg Host.Outcome.next heq'⟩⟩
  case rxError =>
    obtain rfl : u = strobeFlushRx s := by rw [hu, hv]; rfl
    obtain ⟨r, hr, heq⟩ := reportRxOverflow_eq s
    exact ⟨r, hr, congrArg Host.Outcome.next heq⟩

end Sys2Proof.Machine
end

section
/-! SUPPORT. The KISS codec (R190 to R194): the tokens of a buffer, the pairs of a body, the length of an escaped payload, the nibbles of
a command byte. -/

namespace Sys2Proof

/-! ## Tokens (R190) -/

/-- A buffer is its leading run of delimiters and what follows it. -/
theorem exists_eq_replicate_append_dropWhile (buf : Bytes) :
    ∃ n, buf = List.replicate n FEND ++ buf.dropWhile (· == FEND) := by
  refine ⟨(buf.takeWhile (· == FEND)).length, ?_⟩
  have hrun : buf.takeWhile (· == FEND) = List.replicate (buf.takeWhile (· == FEND)).length FEND :=
    List.eq_replicate_of_mem fun b hb => by simpa using List.mem_takeWhile_imp hb
  rw [← hrun, List.takeWhile_append_dropWhile]

/-- A token is cut only from a run of delimiters, a body without one and a closing delimiter (R190). -/
theorem exists_body_of_tokenize {buf frame rest : Bytes} (h : tokenize buf = some (frame, rest)) :
    ∃ n body tl, body ≠ [] ∧ FEND ∉ body ∧ buf = List.replicate (n + 1) FEND ++ body ++ FEND :: tl := by
  cases buf with
  | nil => cases h
  | cons b buf =>
    simp only [tokenize, Option.ite_none_left_eq_some, Option.ite_none_right_eq_some] at h
    obtain ⟨rfl, hclosed, -⟩ := h
    obtain ⟨n, hrun⟩ := exists_eq_replicate_append_dropWhile buf
    rw [List.dropWhile_cons_of_pos (by simp)] at hclosed
    have hmem : FEND ∈ buf.dropWhile (· == FEND) := by simpa using hclosed
    obtain ⟨body, tl, hbody, hnone⟩ := List.eq_append_cons_of_mem hmem
    refine ⟨n, body, tl, ?_, hnone, ?_⟩
    · rintro rfl
      have hhead := List.head?_dropWhile_not (· == FEND) buf
      simp [hbody] at hhead
    · rw [List.append_assoc, ← hbody, List.replicate_succ, List.cons_append, ← hrun]

/-! ## The pairs of a body (R79, R191) -/

/-- Every escape in a body is followed by `TFEND` or `TFESC`: the body's share of R79's well-formedness. -/
def EscapesPaired (body : Bytes) : Prop :=
  ∀ i : Nat, body[i]? = some FESC → body[i + 1]? = some TFEND ∨ body[i + 1]? = some TFESC

theorem EscapesPaired.tail {b : Byte} {body : Bytes} (h : EscapesPaired (b :: body)) : EscapesPaired body :=
  fun i hi => h (i + 1) hi

/-- `ESCAPE` gives back what the loop of `UNESCAPE` read from a well-formed body (R193 (e)). -/
theorem flatMap_escapeByte_unescapeBody {body : Bytes} (hfend : FEND ∉ body) (hpaired : EscapesPaired body) :
    (unescapeBody body).flatMap escapeByte = body := by
  induction body using unescapeBody.induct with
  | case1 => rfl
  | case2 =>
    have hnext := hpaired 0 rfl
    simp at hnext
  | case3 b hb =>
    have hne : b ≠ FEND := by rintro rfl; simp at hfend
    simp [unescapeBody, escapeByte, hb, hne]
  | case4 c rest ih =>
    obtain ⟨-, -, hrest⟩ : FEND ≠ FESC ∧ FEND ≠ c ∧ FEND ∉ rest := by simpa using hfend
    have hpair : escapeByte (unescapePair c) = [FESC, c] := by
      have hnext : c = TFEND ∨ c = TFESC := by simpa using hpaired 0 rfl
      rcases hnext with rfl | rfl <;> rfl
    simp [unescapeBody, hpair, ih hrest hpaired.tail.tail]
  | case5 b c rest hb ih =>
    obtain ⟨hne, htail⟩ : FEND ≠ b ∧ FEND ∉ c :: rest := by simpa using hfend
    have hself : escapeByte b = [b] := by simp [escapeByte, hb, hne.symm]
    simp [unescapeBody, hb, hself, ih htail hpaired.tail]

/-- Every byte of a body gives at most one byte (R193 (b)). -/
theorem length_unescapeBody_le (body : Bytes) : (unescapeBody body).length ≤ body.length := by
  induction body using unescapeBody.induct with
  | case1 | case2 => simp [unescapeBody]
  | case3 b hb => simp [unescapeBody, hb]
  | case4 c rest ih => simp [unescapeBody]; omega
  | case5 b c rest hb ih => simpa [unescapeBody, hb] using ih

/-! ## The length of an escaped payload (R192) -/

/-- The bytes that are escaped: the delimiter and the escape. -/
def isEscaped (b : Byte) : Bool := b == FEND || b == FESC

theorem length_flatMap_escapeByte (p : Bytes) : (p.flatMap escapeByte).length = p.length + p.countP isEscaped := by
  have hbyte (b : Byte) : (escapeByte b).length = 1 + if isEscaped b then 1 else 0 := by
    by_cases hfend : b = FEND
    · subst hfend; rfl
    · by_cases hfesc : b = FESC
      · subst hfesc; rfl
      · simp [escapeByte, isEscaped, hfend, hfesc]
  induction p with
  | nil => rfl
  | cons b p ih => rw [List.flatMap_cons, List.length_append, ih, hbyte, List.length_cons, List.countP_cons]; omega

/-! ## The nibbles of a command byte (R80, R194) -/

theorem cmdOf_eq_ofNat (b : Byte) : cmdOf b = BitVec.ofNat 4 b.toNat := by
  simp [cmdOf, BitVec.extractLsb']

theorem portOf_eq_ofNat (b : Byte) : portOf b = BitVec.ofNat 4 (b.toNat / 16) := by
  simp [portOf, BitVec.extractLsb', Nat.shiftRight_eq_div_pow]

theorem cmdOf_eq_zero_iff (b : Byte) : cmdOf b = 0 ↔ b.toNat % 16 = 0 := by
  rw [cmdOf_eq_ofNat, ← BitVec.toNat_inj]; simp

end Sys2Proof
end

section
/-! SUPPORT. The framer: what the byte-serial reader makes of a frame (R191, R203), and what `KISS_PROCESS` makes of the tokens of a
buffer (R202). -/

namespace Sys2Proof.Machine

/-! ## The reader (R191, R203) -/

/-- All a byte that is no delimiter does to the reader. -/
theorem kissByte_of_ne_FEND {b : Byte} (h : b ≠ FEND) (s : State) :
    kissByte b s =
      if s.host.kiss.esc then kissEmit (unescapePair b) s
      else if b = FESC then { s with host.kiss.esc := true } else kissEmit b s := by
  unfold kissByte
  rw [if_neg h]
  split
  · subst b; rfl
  · split
    · subst b; rfl
    · split
      · subst b; rfl
      · simp [unescapePair, *]

theorem kissBytes_cons (b : Byte) (f : Bytes) (s : State) : kissBytes (b :: f) s = kissBytes f (kissByte b s) := rfl

/-- The bytes that have still to be read as a body when `esc` says whether a `FESC` waits for its second byte. -/
def pendingBody (esc : Bool) (body : Bytes) : Bytes := if esc then FESC :: body else body

/-- Reading a frame byte by byte puts out what the loop of R191 makes of it, a waiting `FESC` included. -/
theorem kissBytes_out (f : Bytes) (s : State) :
    (kissBytes f s).host.kiss.out =
      s.host.kiss.out ++ unescapeBody (pendingBody s.host.kiss.esc (f.filter (· != FEND))) := by
  induction f generalizing s with
  | nil => cases h : s.host.kiss.esc <;> simp [kissBytes, pendingBody, unescapeBody]
  | cons b f ih =>
    rw [kissBytes_cons, ih]
    by_cases hfend : b = FEND
    · subst b; rfl
    · have hkeep : (b :: f).filter (· != FEND) = b :: f.filter (· != FEND) := by simp [hfend]
      rw [kissByte_of_ne_FEND hfend, hkeep]
      cases hesc : s.host.kiss.esc with
      | true => simp [kissEmit, pendingBody, unescapeBody]
      | false =>
        by_cases hfesc : b = FESC
        · simp [hfesc, pendingBody]
        · cases hrest : f.filter (· != FEND) <;> simp [hfesc, kissEmit, pendingBody, unescapeBody]

theorem kissBytes_frame (f : Bytes) (s : State) :
    kissBytes f s = { s with host.kiss.out := (kissBytes f s).host.kiss.out, host.kiss.esc := (kissBytes f s).host.kiss.esc } := by
  induction f generalizing s with
  | nil => rfl
  | cons b f ih =>
    rw [kissBytes_cons, ih, kissByte_frame]

/-- `UNESCAPE` starts with nothing put out and no `FESC` waiting. -/
theorem exec_unescape (f : Bytes) (s : State) :
    exec (.unescape f) s = .next { s with
      host.kiss.out := unescape f
      host.kiss.esc := (kissBytes f (kissStart s)).host.kiss.esc
      host.res := .bytes (unescape f) } := by
  have hout : (kissBytes f (kissStart s)).host.kiss.out = unescape f := kissBytes_out f (kissStart s)
  have hexec : exec (.unescape f) s =
      .next (setRes (.bytes (kissBytes f (kissStart s)).host.kiss.out) (kissBytes f (kissStart s))) := rfl
  rw [hexec, kissBytes_frame, hout]
  rfl

/-! ## The tokens of a buffer (R202) -/

theorem tokensUpTo_of_none {buf : Bytes} (h : tokenize buf = none) (fuel : Nat) : tokensUpTo fuel buf = [] := by
  cases fuel with
  | zero => rfl
  | succ fuel => simp [tokensUpTo, h]

theorem tokensUpTo_succ_of_some {buf frame rest : Bytes} (h : tokenize buf = some (frame, rest)) (fuel : Nat) :
    tokensUpTo (fuel + 1) buf = frame :: tokensUpTo fuel rest := by simp [tokensUpTo, h]

/-- Any two fuels that are not less than the buffer's length give the same tokens: each token leaves a shorter rest. -/
theorem tokensUpTo_eq_of_length_le {m n : Nat} {buf : Bytes} (hm : buf.length ≤ m) (hn : buf.length ≤ n) :
    tokensUpTo m buf = tokensUpTo n buf := by
  induction m generalizing n buf with
  | zero =>
    obtain rfl : buf = [] := List.eq_nil_of_length_eq_zero (by omega)
    exact (tokensUpTo_of_none rfl n).symm
  | succ m ih =>
    cases htok : tokenize buf with
    | none => rw [tokensUpTo_of_none htok, tokensUpTo_of_none htok]
    | some token =>
      obtain ⟨frame, rest⟩ := token
      obtain ⟨hlen, -⟩ := tokenize_rest htok
      obtain ⟨n, rfl⟩ : ∃ k, n = k + 1 := ⟨n - 1, by omega⟩
      rw [tokensUpTo_succ_of_some htok, tokensUpTo_succ_of_some htok, ih (n := n) (by omega) (by omega)]

/-- A buffer that starts with the delimiter is in sync: nothing is dropped from its front. -/
theorem dropWhile_of_head?_FEND {buf : Bytes} (h : buf.head? = some FEND) : buf.dropWhile (· != FEND) = buf := by
  obtain ⟨tl, rfl⟩ := List.head?_eq_some_iff.mp h
  simp

theorem tokensOf_of_head? {buf : Bytes} (h : buf.head? = some FEND) : tokensOf buf = tokensUpTo buf.length buf := by
  rw [tokensOf, dropWhile_of_head?_FEND h]

/-- A buffer gives a token only if it starts with the delimiter (R190). -/
theorem head?_of_tokenize {buf frame rest : Bytes} (h : tokenize buf = some (frame, rest)) : buf.head? = some FEND := by
  obtain ⟨n, body, tl, -, -, rfl⟩ := exists_body_of_tokenize h
  simp [List.replicate_succ]

theorem tokensOf_of_some {buf frame rest : Bytes} (h : tokenize buf = some (frame, rest)) :
    tokensOf buf = frame :: tokensOf rest := by
  obtain ⟨hlen, hrest⟩ := tokenize_rest h
  obtain ⟨n, hn⟩ : ∃ n, buf.length = n + 1 := ⟨buf.length - 1, by omega⟩
  rw [tokensOf_of_head? (head?_of_tokenize h), tokensOf_of_head? hrest, hn, tokensUpTo_succ_of_some h,
    tokensUpTo_eq_of_length_le (m := n) (by omega) le_rfl]

/-! ## Frames and `KISS_PROCESS` (R202) -/

/-- All a configuration frame does: commands 1 to 4 write a register, 15 sets `HALT`, the others nothing (R196 to R201). -/
theorem applyConfig_eq {f : Bytes} {cmd port : Nibble} {value : Option Byte} (h : interpretCommand f = .config cmd port value)
    (s : State) :
    applyConfig cmd value s = { s with
      host.tnc := tncAfter s.par f s.host.tnc
      host.sch.halt := s.host.sch.halt || isAbortFrame f } := by
  unfold tncAfter isAbortFrame
  rw [h]
  by_cases h1 : cmd = 1#4
  · subst h1; cases value <;> simp [applyConfig, setKeyup, kissDelay]
  by_cases h2 : cmd = 2#4
  · subst h2; cases value <;> simp [applyConfig, setPersist]
  by_cases h3 : cmd = 3#4
  · subst h3; cases value <;> simp [applyConfig, setSlottime]
  by_cases h4 : cmd = 4#4
  · subst h4; cases value <;> simp [applyConfig, setKeydown, kissDelay]
  by_cases h15 : cmd = 15#4
  · subst h15; simp [applyConfig, setHalt]
  · simp [applyConfig, h1, h2, h3, h4, h15]

/-- All a frame does: data is kept, configuration is applied, an empty content is neither (R194 to R204). -/
theorem kissFrame_eq (f : Bytes) (s : State) :
    kissFrame f s = { s with
      host.kiss.frame := f
      host.kiss.rem := s.host.kiss.rem ++ if isDataFrame f then f else []
      host.tnc := tncAfter s.par f s.host.tnc
      host.sch.halt := s.host.sch.halt || isAbortFrame f } := by
  unfold kissFrame isDataFrame
  cases hcmd : interpretCommand f with
  | data port bytes => simp [keepFrame, tncAfter, isAbortFrame, hcmd]
  | empty => simp [tncAfter, isAbortFrame, hcmd]
  | config cmd port value => simp [applyConfig_eq hcmd]

/-- The loop runs the tokens one after another. -/
theorem kissLoop_eq_foldl (fuel : Nat) (buf : Bytes) (s : State) :
    kissLoop fuel buf s = (tokensUpTo fuel buf).foldl (fun s f => kissFrame f s) s := by
  induction fuel generalizing buf s with
  | zero => rfl
  | succ fuel ih =>
    cases htok : tokenize buf with
    | none => simp [kissLoop, tokensUpTo, htok]
    | some token =>
      obtain ⟨frame, rest⟩ := token
      rw [tokensUpTo_succ_of_some htok, List.foldl_cons, ← ih]
      simp [kissLoop, htok]

/-- All a run of frames does. -/
theorem foldl_kissFrame (fs : List Bytes) (s : State) :
    ∃ k : Kiss, k.rem = s.host.kiss.rem ++ (fs.filter isDataFrame).flatten ∧
      fs.foldl (fun s f => kissFrame f s) s = { s with
        host.kiss := k
        host.tnc := fs.foldl (fun c f => tncAfter s.par f c) s.host.tnc
        host.sch.halt := s.host.sch.halt || fs.any isAbortFrame } := by
  induction fs generalizing s with
  | nil => exact ⟨s.host.kiss, by simp⟩
  | cons f fs ih =>
    obtain ⟨k, hrem, hrun⟩ := ih (kissFrame f s)
    refine ⟨k, ?_, ?_⟩
    · rw [hrem, kissFrame_eq]
      cases h : isDataFrame f <;> simp [h]
    · rw [List.foldl_cons, hrun, kissFrame_eq]
      simp [Bool.or_assoc]

/-- The log line of a buffer out of sync (R202). -/
theorem resync_eq (buf : Bytes) (s : State) :
    resync buf s = { s with log := s.log ++ if buf ≠ [] ∧ buf.head? ≠ some FEND then [.kissNosync] else [] } := by
  cases buf with
  | nil => simp [resync, noSync]
  | cons b tl => by_cases h : b = FEND <;> simp [resync, noSync, logEvent, h]

/-- All `KISS_PROCESS` does before it answers. -/
theorem kissRun_eq (buf : Bytes) (s : State) :
    ∃ k : Kiss, k.rem = ((tokensOf buf).filter isDataFrame).flatten ∧
      kissRun buf s = { s with
        host.kiss := k
        host.tnc := (tokensOf buf).foldl (fun c f => tncAfter s.par f c) s.host.tnc
        host.sch.halt := s.host.sch.halt || (tokensOf buf).any isAbortFrame
        log := s.log ++ if buf ≠ [] ∧ buf.head? ≠ some FEND then [.kissNosync] else [] } := by
  obtain ⟨k, hrem, hrun⟩ := foldl_kissFrame (tokensOf buf) (resync buf { s with host.kiss.rem := [] })
  rw [resync_eq] at hrem hrun
  refine ⟨k, by simpa using hrem, ?_⟩
  rw [kissRun, kissLoop_eq_foldl, resync_eq]
  exact hrun

end Sys2Proof.Machine
end

section
/-! The KISS codec and commands of `43_kiss.md`: tokens, the laws of the codec, the reader, the commands, `KISS_PROCESS`. -/

namespace Sys2Proof.Machine

/-- Settles O4, by `tokenize_replicate_append` and its converse `exists_body_of_tokenize`. -/
theorem tokenizeFindsFirstFrame : Obligations.TokenizeFindsFirstFrame := by
  unfold Obligations.TokenizeFindsFirstFrame
  exact ⟨fun _ _ => rfl, fun n _ tl hne hbody => tokenize_replicate_append hne hbody n tl,
    fun _ _ _ => exists_body_of_tokenize⟩

/-- Settles O5: each law by its lemma about bodies; for the last, no frame is empty, so `ESCAPE` never answers the empty sequence. -/
theorem codecLaws : Obligations.CodecLaws := by
  unfold Obligations.CodecLaws
  refine ⟨fun _ _ => rfl, unescape_escape, fun f => ?shorter, fun p => ?length, fun p => ?delimiters,
    fun body hbody hpaired => ?inverse, [], List.cons_ne_nil _ _⟩
  case shorter => exact (length_unescapeBody_le _).trans (List.length_filter_le _ f)
  case length =>
    have hlen : (p.flatMap escapeByte).length = p.length + p.countP (fun b => b == 0xC0 || b == 0xDB) :=
      length_flatMap_escapeByte p
    rw [escape, List.length_cons, List.length_append, hlen, List.length_singleton]
    omega
  case delimiters => exact ⟨p.flatMap escapeByte, rfl, FEND_notMem_flatMap_escapeByte p⟩
  case inverse =>
    have hread : unescape (0xC0 :: (body ++ [0xC0])) = unescapeBody body := by
      have hkeep : body.filter (· != FEND) = body := List.filter_eq_self.mpr (bne_FEND_of_mem hbody)
      have hends : (FEND :: (body ++ [FEND])).filter (· != FEND) = body.filter (· != FEND) := by simp
      exact congrArg unescapeBody (hends.trans hkeep)
    rw [hread, escape, flatMap_escapeByte_unescapeBody hbody hpaired]
    rfl

/-- Settles O6: the frame by `exec_unescape`, a special byte by whether a `FESC` waits. -/
theorem unescapeReadsByteByByte : Obligations.UnescapeReadsByteByByte := by
  unfold Obligations.UnescapeReadsByteByByte
  refine ⟨fun f s => ⟨_, exec_unescape f s⟩, fun s => ⟨rfl, fun hesc => ?_, fun hesc => ?_⟩⟩
  all_goals simp [exec, execFesc, execTfend, execTfesc, onFesc, onTfend, onTfesc, kissEmit, hesc, FEND, FESC, TFEND, TFESC]

/-- Settles O7, by the nibbles of the command byte (`cmdOf_eq_zero_iff`, `portOf_eq_ofNat`). -/
theorem interpretCommandReadsNibbles : Obligations.InterpretCommandReadsNibbles := by
  unfold Obligations.InterpretCommandReadsNibbles
  intro f s
  refine ⟨rfl, fun hu => ?empty, fun b u hu hcmd => ?data, fun b u hu hcmd => ?config⟩ <;>
    rw [interpretCommand, hu, interpretContent]
  case data => rw [if_pos ((cmdOf_eq_zero_iff b).mpr hcmd), portOf_eq_ofNat]
  case config =>
    rw [if_neg (mt (cmdOf_eq_zero_iff b).mp hcmd), portOf_eq_ofNat, cmdOf_eq_ofNat, List.head?_eq_getElem?]

/-- Settles O8: each command writes its register by computation. -/
theorem kissCommandsWriteTheirRegister : Obligations.KissCommandsWriteTheirRegister := by
  unfold Obligations.KissCommandsWriteTheirRegister
  intro port cmd v o s
  exact ⟨rfl, rfl, rfl, rfl, rfl, rfl, rfl, rfl, rfl, rfl⟩

/-- Settles O9, by computation. -/
theorem kissDataKeepsTheFrame : Obligations.KissDataKeepsTheFrame := by
  unfold Obligations.KissDataKeepsTheFrame
  intro port d s
  rfl

/-- Settles O10: the run by `kissRun_eq`, the tokens by `tokensOf_of_some` and `tokensUpTo_of_none`. -/
theorem kissProcessRunsEveryFrame : Obligations.KissProcessRunsEveryFrame := by
  unfold Obligations.KissProcessRunsEveryFrame
  refine ⟨fun buf s => ?run, fun _ _ _ => tokensOf_of_some, fun buf hhead htok => ?none⟩
  case run =>
    obtain ⟨k, hrem, hrun⟩ := kissRun_eq buf s
    have hexec : exec (.kissProcess buf) s = .next (setRes (.bytes (kissRun buf s).host.kiss.rem) (kissRun buf s)) := rfl
    exact ⟨k, hrem, by rw [hexec, hrun]; rfl⟩
  case none => rw [tokensOf_of_head? hhead, tokensUpTo_of_none htok]

end Sys2Proof.Machine
end

section
/-! SUPPORT. `HALT`: which operations, tasks and turns leave it, and by which frames the framer sets it (R200, R234, R39). -/

namespace Sys2Proof.Machine

/-- `HALT` is as it was. -/
def HaltKept (s t : State) : Prop := t.host.sch.halt = s.host.sch.halt

theorem HaltKept.refl (s : State) : HaltKept s s := rfl

theorem HaltKept.trans {s t u : State} (h : HaltKept s t) (k : HaltKept t u) : HaltKept s u := Eq.trans k h

/-- A step taken only under a condition. -/
theorem HaltKept.ite {s t : State} (h : HaltKept s t) (c : Bool) : HaltKept s (if c then t else s) := by
  cases c
  · exact .refl s
  · exact h

theorem DevOnly.haltKept {s t : State} (h : DevOnly s t) : HaltKept s t := by
  obtain ⟨_, _, hhost, _⟩ := h
  exact congrArg (fun host => host.sch.halt) hhost

/-! ## Answers, transport and segmentation (R100, R101, R113, R131 to R134)

As in the host half's frame, an update of the state that names no `HALT` keeps it by computation. -/

theorem sendCommandOp_haltKept (c : Cmd) (p : Bytes) (s : State) : HaltKept s (sendCommandOp c p s) := by
  unfold sendCommandOp; split <;> rfl

theorem initFailed_haltKept (n : Nat) (s : State) : HaltKept s (initFailed n s) := by
  unfold initFailed; dsimp only; split <;> rfl

theorem endExchange_haltKept (r : Result) (s : State) : HaltKept s (endExchange r s) := by
  unfold endExchange logFailure; split <;> rfl

theorem answerInit_haltKept (n : Nat) (ty : Byte) (s : State) : HaltKept s (answerInit n ty s) := by
  unfold answerInit; split
  · rfl
  · exact initFailed_haltKept n s

theorem answerCancel_haltKept (ty : Byte) (s : State) : HaltKept s (answerCancel ty s) := by
  unfold answerCancel; split <;> rfl

theorem answerReply_haltKept (c : Cmd) (ty : Byte) (p : Bytes) (s : State) : HaltKept s (answerReply c ty p s) := by
  unfold answerReply; split
  · rfl
  · exact endExchange_haltKept _ s

theorem hostAnswer_haltKept (ty : Byte) (p : Bytes) (s : State) : HaltKept s (hostAnswer ty p s) := by
  unfold hostAnswer; split
  · exact answerInit_haltKept _ ty (setCtl _ s)
  · exact endExchange_haltKept _ (setCtl _ s)
  · exact endExchange_haltKept _ (setCtl _ s)
  · exact answerCancel_haltKept ty (setCtl _ s)
  · exact answerReply_haltKept _ ty p (setCtl _ s)
  · rfl

theorem hostTimeout_haltKept (s : State) : HaltKept s (hostTimeout s) := by
  unfold hostTimeout; split
  · exact initFailed_haltKept _ (setCtl _ s)
  all_goals rfl

theorem pollOp_haltKept (s : State) : Runs (HaltKept s) (pollOp s) := by
  unfold pollOp; dsimp only; split
  · rw [replyDispatch_eq]; exact hostAnswer_haltKept _ _ _
  · split
    · exact hostTimeout_haltKept _
    · exact HaltKept.refl s

theorem exchangeOp_haltKept (c : Cmd) (p : Bytes) (s : State) : HaltKept s (exchangeOp c p s) := by
  unfold exchangeOp; split <;> exact sendCommandOp_haltKept c p s

theorem packetBlockOp_haltKept (p : Bytes) (b delay : Nat) (s : State) : HaltKept s (packetBlockOp p b delay s) :=
  sendCommandOp_haltKept .tx _ (pushTasks _ s)

theorem packetSentOp_haltKept (p : Bytes) (b delay : Nat) (s : State) : HaltKept s (packetSentOp p b delay s) := by
  unfold packetSentOp; split
  · dsimp only; split <;> rfl
  · rfl

theorem receiveBlockOp_haltKept (b : Byte) (t : Nat) (skip : Bool) (s : State) : HaltKept s (receiveBlockOp b t skip s) := by
  unfold receiveBlockOp; split
  · rfl
  · exact sendCommandOp_haltKept .rx [b] s

theorem blockReceivedOp_haltKept (b tInter : Nat) (s : State) : HaltKept s (blockReceivedOp b tInter s) := by
  unfold blockReceivedOp; split
  · dsimp only; repeat' split
    all_goals rfl
  · rfl

theorem execSendPacket_haltKept (p : Bytes) (b delay : Nat) (s : State) : Runs (HaltKept s) (execSendPacket p b delay s) := by
  unfold execSendPacket; dsimp only; split
  · exact HaltKept.refl s
  · split
    · exact HaltKept.refl s
    · exact packetBlockOp_haltKept p b delay _

theorem execSendBlock_haltKept (cd : Byte) (chunk : Bytes) (s : State) : Runs (HaltKept s) (execSendBlock cd chunk s) := by
  unfold execSendBlock; split
  · exact sendCommandOp_haltKept .tx (cd :: chunk) s
  · exact HaltKept.refl s

theorem execReceivePacket_haltKept (b tFirst tInter : Nat) (armed : Bool) (s : State) :
    Runs (HaltKept s) (execReceivePacket b tFirst tInter armed s) := by
  unfold execReceivePacket; split <;> exact HaltKept.refl s

theorem execReceiveBlock_haltKept (b : Byte) (t : Nat) (skip : Bool) (s : State) :
    Runs (HaltKept s) (execReceiveBlock b t skip s) := by
  unfold execReceiveBlock; split
  · exact receiveBlockOp_haltKept b t skip s
  · exact HaltKept.refl s

/-! ## The scheduler but `FLUSH_T` (R221 to R223, R227, R230) -/

theorem flushROp_haltKept (s : State) : HaltKept s (flushROp s) := by
  unfold flushROp; dsimp only; split <;> rfl

/-- `FLUSH_R` leaves the terminal-side buffer (R227, R230). -/
theorem flushROp_tbuf (s : State) : (flushROp s).host.sch.tbuf = s.host.sch.tbuf := by
  unfold flushROp; dsimp only; split <;> rfl

theorem flushTEndOp_haltKept (s : State) : HaltKept s (flushTEndOp s) := by
  unfold flushTEndOp; dsimp only; split <;> rfl

theorem flushTSentOp_haltKept (s : State) : HaltKept s (flushTSentOp s) := by
  unfold flushTSentOp; split
  · rfl
  · rfl
  · exact flushTEndOp_haltKept s

theorem step1DoneOp_haltKept (s : State) : HaltKept s (step1DoneOp s) := by
  unfold step1DoneOp; dsimp only; split
  · split
    · rfl
    · split <;> rfl
  all_goals rfl

theorem loopTailOp_haltKept (s : State) : HaltKept s (loopTailOp s) := by
  unfold loopTailOp; split <;> rfl

theorem execStep1_haltKept (s : State) : Runs (HaltKept s) (execStep1 s) := by
  unfold execStep1; dsimp only; split <;> rfl

theorem execStep2_haltKept (s : State) : Runs (HaltKept s) (execStep2 s) := by
  unfold execStep2; dsimp only; split <;> rfl

/-! ## The framer in `FLUSH_T` (R202, R231) -/

/-- `HALT` is as it was, or one of the frames has set it. -/
def HaltedBy (frames : List Bytes) (s t : State) : Prop :=
  HaltKept s t ∨ (t.host.sch.halt = true ∧ ∃ f ∈ frames, isAbortFrame f = true)

theorem HaltKept.haltedBy {s t : State} (h : HaltKept s t) (frames : List Bytes) : HaltedBy frames s t := .inl h

theorem HaltedBy.ite {frames : List Bytes} {s t : State} (h : HaltedBy frames s t) (c : Bool) :
    HaltedBy frames s (if c then t else s) := by
  cases c
  · exact (HaltKept.refl s).haltedBy frames
  · exact h

theorem HaltKept.trans_haltedBy {frames : List Bytes} {s t u : State} (h : HaltKept s t) (k : HaltedBy frames t u) :
    HaltedBy frames s u := k.imp_left h.trans

theorem HaltedBy.trans_haltKept {frames : List Bytes} {s t u : State} (h : HaltedBy frames s t) (k : HaltKept t u) :
    HaltedBy frames s u := by
  rcases h with h | ⟨hset, hframe⟩
  · exact .inl (h.trans k)
  · exact .inr ⟨Eq.trans k hset, hframe⟩

theorem kissRun_haltedBy (buf : Bytes) (s : State) : HaltedBy (tokensOf buf) s (kissRun buf s) := by
  obtain ⟨k, -, hrun⟩ := kissRun_eq buf s
  have hhalt : (kissRun buf s).host.sch.halt = (s.host.sch.halt || (tokensOf buf).any isAbortFrame) := by rw [hrun]
  cases habort : (tokensOf buf).any isAbortFrame with
  | false => exact .inl (hhalt.trans (by simp [habort]))
  | true => exact .inr ⟨by simpa [habort] using hhalt, List.any_eq_true.mp habort⟩

theorem flushTProcessOp_haltedBy (s : State) : HaltedBy (tokensOf s.host.sch.tbuf) s (flushTProcessOp s) := by
  have hrun := kissRun_haltedBy s.host.sch.tbuf s
  unfold flushTProcessOp; dsimp only; split
  · exact hrun.trans_haltKept (flushTEndOp_haltKept _)
  · exact hrun

theorem flushTOp_haltedBy (s : State) : HaltedBy (tokensOf s.host.sch.tbuf) s (flushTOp s) := by
  unfold flushTOp; split
  · exact (HaltKept.refl s).haltedBy _
  · exact flushTProcessOp_haltedBy s

theorem execStep4_haltedBy (s : State) : Runs (HaltedBy (tokensOf s.host.sch.tbuf) s) (execStep4 s) :=
  HaltedBy.ite (flushTOp_haltedBy (atStep 4 s)) _

/-- The radio-side flush of `STEP5` leaves what the terminal-side flush runs the framer on (R225, R233). -/
theorem execStep5_haltedBy (s : State) : Runs (HaltedBy (tokensOf s.host.sch.tbuf) s) (execStep5 s) := by
  unfold execStep5; dsimp only; split
  · set u := if step5FiresR (atStep 5 s) then flushROp (atStep 5 s) else atStep 5 s with hu
    have hkept : HaltKept s u := HaltKept.ite (flushROp_haltKept (atStep 5 s)) _
    have hbuf : u.host.sch.tbuf = s.host.sch.tbuf := by
      rw [hu]; split
      · exact flushROp_tbuf (atStep 5 s)
      · rfl
    rw [← hbuf]
    exact hkept.trans_haltedBy ((flushTOp_haltedBy u).ite _)
  · exact (HaltKept.refl s).haltedBy _

/-! ## Every instruction, task and turn -/

/-- The frames an instruction runs (R202, R231): those of its operand, or those of the terminal-side buffer. -/
def framesRun (s : State) : Instr → List Bytes
  | .kissProcess buf => tokensOf buf
  | .flushT => tokensOf s.host.sch.tbuf
  | .step4 => tokensOf s.host.sch.tbuf
  | .step5 => tokensOf s.host.sch.tbuf
  | _ => []

/-- An instruction that runs a frame is `KISS_PROCESS` on a buffer that holds it, or one of the three that flush the terminal side. -/
theorem of_mem_framesRun {s : State} {i : Instr} {f : Bytes} (hf : f ∈ framesRun s i) :
    (∃ buf, i = .kissProcess buf ∧ f ∈ tokensOf buf) ∨
      ((i = .flushT ∨ i = .step4 ∨ i = .step5) ∧ f ∈ tokensOf s.host.sch.tbuf) := by
  unfold framesRun at hf
  split at hf
  next buf => exact .inl ⟨buf, rfl, hf⟩
  next => exact .inr ⟨.inl rfl, hf⟩
  next => exact .inr ⟨.inr (.inl rfl), hf⟩
  next => exact .inr ⟨.inr (.inr rfl), hf⟩
  next => cases hf

/-- The instructions that may write `HALT`. -/
def writesHalt : Instr → Bool
  | .kissAbort _ _ => true
  | .schedStart => true
  | .kissProcess _ => true
  | .flushT => true
  | .step4 => true
  | .step5 => true
  | _ => false

theorem exec_haltKept_of_hostOp {i : Instr} (hop : hostOp i = true) (hw : writesHalt i = false) (s : State) :
    Runs (HaltKept s) (exec i s) := by
  have hread (frame : Bytes) (u : State) : HaltKept u (kissBytes frame u) := by rw [kissBytes_frame]; rfl
  cases i with
  | blockReserved dir ty p =>
    cases dir with
    | h2d => cases hop
    | d2h => exact hostAnswer_haltKept ty p s
  | initEcho | txAck | rxAck | rxCancelEcho | radioStatusReply | echoTestReply | txKo | rxKo => exact hostAnswer_haltKept _ _ s
  | fesc => exact hread [FESC] s
  | tfend => exact hread [TFEND] s
  | tfesc => exact hread [TFESC] s
  | unescape frame => exact hread frame (kissStart s)
  | kissTxdelay _ v | kissPersist _ v | kissSlottime _ v | kissTxtail _ v => cases v <;> exact HaltKept.refl s
  | sendCommand c p => exact sendCommandOp_haltKept c p s
  | readBlock => exact pollOp_haltKept _
  | hostInit => exact sendCommandOp_haltKept .init _ s
  | sendPacket p b delay => exact execSendPacket_haltKept p b delay s
  | sendBlock cd chunk => exact execSendBlock_haltKept cd chunk s
  | receivePacket b tFirst tInter armed => exact execReceivePacket_haltKept b tFirst tInter armed s
  | receiveBlock b t skip => exact execReceiveBlock_haltKept b t skip s
  | step1 => exact execStep1_haltKept s
  | step2 => exact execStep2_haltKept s
  | step3 => exact HaltKept.ite (flushROp_haltKept (atStep 3 s)) _
  | clearState side => cases side <;> exact HaltKept.refl s
  | armRx => exact sendCommandOp_haltKept .rx _ s
  | cancelRx => exact sendCommandOp_haltKept .rxCancel [] s
  | flushR => exact flushROp_haltKept s
  | fend | kissData | kissUnlisted | tokenize | escape | interpretCommand | schedLoop | elapsed => exact HaltKept.refl s
  | kissAbort | schedStart | kissProcess | flushT | step4 | step5 => cases hw
  | _ => cases hop

/-- No other instruction writes `HALT`: the device half has none (R20). -/
theorem exec_haltKept {i : Instr} (hw : writesHalt i = false) (s : State) : Runs (HaltKept s) (exec i s) := by
  cases hop : hostOp i with
  | true => exact exec_haltKept_of_hostOp hop hw s
  | false => exact (exec_devOnly hop s).mono fun _ => DevOnly.haltKept

/-- `KISS_ABORT` and `SCHED_START` apart, an instruction changes `HALT` only by a frame it runs. -/
theorem exec_haltedBy {i : Instr} (habort : ∀ port v, i ≠ .kissAbort port v) (hstart : i ≠ .schedStart) (s : State) :
    Runs (HaltedBy (framesRun s i) s) (exec i s) := by
  cases hw : writesHalt i with
  | false => exact (exec_haltKept hw s).mono fun _ ht => ht.haltedBy _
  | true =>
    cases i with
    | kissAbort port v => exact absurd rfl (habort port v)
    | schedStart => exact absurd rfl hstart
    | kissProcess buf => exact kissRun_haltedBy buf s
    | flushT => exact flushTOp_haltedBy s
    | step4 => exact execStep4_haltedBy s
    | step5 => exact execStep5_haltedBy s
    | _ => cases hw

/-- Of the host's tasks only the middle of `FLUSH_T` runs frames (R231). -/
theorem runTask_haltKept {k : Task} (hk : k ≠ .flushTProcess) (s : State) : Runs (HaltKept s) (runTask k s) := by
  cases k with
  | flushTProcess => exact absurd rfl hk
  | call | awaitInit | awaitTx | awaitRx | awaitCancel | awaitReply | pollSleep | sleep => exact HaltKept.refl s
  | poll => exact pollOp_haltKept s
  | initAttempt => exact sendCommandOp_haltKept .init _ s
  | exchange c p => exact exchangeOp_haltKept c p s
  | packetBlock p b delay => exact packetBlockOp_haltKept p b delay s
  | packetSent p b delay => exact packetSentOp_haltKept p b delay s
  | blockReceived b tInter => exact blockReceivedOp_haltKept b tInter s
  | step1Done => exact step1DoneOp_haltKept s
  | flushTSent => exact flushTSentOp_haltKept s
  | flushTEnd => exact flushTEndOp_haltKept s
  | loopTail => exact loopTailOp_haltKept s

/-- The turns that run no host operation and do not start the host process. -/
theorem runTurn_haltKept {τ : Turn} (hhost : τ ≠ .host) (hdirect : ∀ i, τ ≠ .direct i) (hstart : ∀ m n, τ ≠ .hostStart m n)
    (s : State) : Runs (HaltKept s) (runTurn τ s) := by
  have hdev {i : Instr} (hi : hostOp i = false) : Runs (HaltKept s) (exec i s) :=
    (exec_devOnly hi s).mono fun _ => DevOnly.haltKept
  cases τ with
  | host => exact absurd rfl hhost
  | direct i => exact absurd rfl (hdirect i)
  | hostStart m n => exact absurd rfl (hstart m n)
  | devRecv => exact hdev (i := .devRecv) rfl
  | devSend => exact hdev (i := .devSend) rfl
  | isrPkt | isrThr =>
    unfold runTurn; dsimp only; split
    · exact hdev rfl
    · exact HaltKept.refl s
  | radio => exact (radioStep_devOnly s).haltKept
  | air air rssi crclqi => exact (airPacket_devOnly air rssi crclqi s).haltKept
  | airLen a => exact (chooseAirLen_devOnly a s).haltKept
  | exchange c p => unfold runTurn askExchange; dsimp only [Runs]; split <;> rfl
  | linkH2D | linkD2H | termPut | termTake | tick | devPowerUp => exact HaltKept.refl s

end Sys2Proof.Machine
end

section
/-! `HALT` of `43_kiss.md` and `44_scheduler.md`: what sets it and what clears it. -/

namespace Sys2Proof.Machine

/-- Settles O58: instructions by `exec_haltedBy`, tasks by `runTask_haltKept` and `flushTProcessOp_haltedBy`, turns by
`runTurn_haltKept`. -/
theorem haltOnlyByAbort : Obligations.HaltOnlyByAbort := by
  unfold Obligations.HaltOnlyByAbort
  refine fun s t => ⟨fun i hexec => ?instruction, fun k hrun hne => ?task, fun τ hrun hne => ?turn⟩
  case instruction =>
    by_cases habort : ∃ port v, i = .kissAbort port v
    · obtain ⟨port, v, rfl⟩ := habort
      cases hexec
      exact ⟨fun _ _ => .inl ⟨port, v, rfl⟩, fun _ hclear => Bool.noConfusion hclear⟩
    by_cases hstart : i = .schedStart
    · subst hstart
      cases hexec
      exact ⟨fun _ hset => Bool.noConfusion hset, fun _ _ => rfl⟩
    rcases (exec_haltedBy (by simpa using habort) hstart s).of_next hexec with hkept | ⟨hset, f, hf, hframe⟩
    · have heq : t.host.sch.halt = s.host.sch.halt := hkept
      cases hold : s.host.sch.halt <;> simp [heq, hold]
    · refine ⟨fun _ _ => .inr ?_, fun _ hclear => by simp [hset] at hclear⟩
      rcases of_mem_framesRun hf with ⟨buf, rfl, hmem⟩ | ⟨hi, hmem⟩
      · exact .inl ⟨buf, rfl, f, hmem, hframe⟩
      · exact .inr ⟨hi, f, hmem, hframe⟩
  case task =>
    by_cases hk : k = .flushTProcess
    · subst hk
      cases hrun
      rcases flushTProcessOp_haltedBy s with hkept | ⟨hset, hframe⟩
      · exact absurd hkept hne
      · exact ⟨hset, rfl, hframe⟩
    · exact absurd ((runTask_haltKept hk s).of_next hrun) hne
  case turn =>
    by_contra hother
    obtain ⟨hhost, hdirect, hstart⟩ : τ ≠ .host ∧ (∀ i, τ ≠ .direct i) ∧ ∀ m n, τ ≠ .hostStart m n := by
      refine ⟨fun h => hother (.inl h), fun i h => hother (.inr (.inl ⟨i, h⟩)), fun m n h => ?_⟩
      subst h
      cases hrun
      exact hother (.inr (.inr ⟨⟨m, n, rfl⟩, rfl⟩))
    exact hne ((runTurn_haltKept hhost hdirect hstart s).of_next hrun)

end Sys2Proof.Machine
end

section
/-! SUPPORT. The scheduler's operations: the window tests (R226), the helpers (R227 to R229), the flushes (R230, R231) and what each of
the five steps does (R221 to R225), by whether it acts. -/

namespace Sys2Proof.Machine

/-! ## The window tests (R223 to R226) -/

theorem elapsedW_iff (w : Nat) (s : State) : elapsedW w s = true ↔ w = 0 ∨ s.now - s.host.sch.tlast > w := by
  simp [elapsedW]

theorem elapsedW_eq (w : Nat) (s : State) : elapsedW w s = decide (w = 0 ∨ s.now - s.host.sch.tlast > w) := by
  rw [Bool.eq_iff_iff, elapsedW_iff, decide_eq_true_iff]

theorem forcedW_iff (w : Nat) (s : State) : forcedW w s = true ↔ w ≠ 0 ∧ s.now - s.host.sch.tlast > w := by
  simp [forcedW]

theorem step3Fires_iff (s : State) :
    step3Fires s = true ↔ s.host.sch.rbuf ≠ [] ∧
      (s.host.sch.rxtrig = true ∨ s.host.cfg.radioWin = 0 ∨ s.now - s.host.sch.tlast > s.host.cfg.radioWin) := by
  simp [step3Fires, ← elapsedW_iff]

theorem step4Fires_iff (s : State) :
    step4Fires s = true ↔ s.host.sch.tbuf ≠ [] ∧
      (s.host.sch.txtrig = true ∨ s.host.cfg.serialWin = 0 ∨ s.now - s.host.sch.tlast > s.host.cfg.serialWin) := by
  simp [step4Fires, ← elapsedW_iff]

theorem step5FiresR_iff (s : State) :
    step5FiresR s = true ↔ s.host.sch.tri = .rxActive ∧ s.host.cfg.radioWin ≠ 0 ∧
      s.now - s.host.sch.tlast > s.host.cfg.radioWin := by
  simp [step5FiresR, forcedW_iff]

theorem step5FiresT_iff (s : State) :
    step5FiresT s = true ↔ s.host.sch.tri = .txActive ∧ s.host.cfg.serialWin ≠ 0 ∧
      s.now - s.host.sch.tlast > s.host.cfg.serialWin := by
  simp [step5FiresT, forcedW_iff]

/-! ## `ARM_RX` and `CANCEL_RX` (R228, R229) -/

/-- Work that is put before the rest only under a condition. -/
theorem ite_pushTasks_eq (c : Prop) [Decidable c] (ts : List Task) (s : State) :
    (if c then pushTasks ts s else s) = { s with host.ctl := (if c then ts else []) ++ s.host.ctl } := by
  split <;> rfl

/-- The block of `ARM_RX` carries the block size (R228). -/
theorem armRxOp_eq (s : State) :
    armRxOp s = { s with
      lH2D.flight := s.lH2D.flight ++ [0x03, 0x01, BitVec.ofNat 8 s.host.cfg.b]
      host.res := .wrote 3
      host.sch.armed := true } := by
  rw [armRxOp, sendCommandOp_of_fits .rx (by simp)]
  rfl

theorem cancelRxOp_eq (s : State) :
    cancelRxOp s = { s with
      lH2D.flight := s.lH2D.flight ++ [0x04, 0x00]
      host.res := .wrote 2
      host.ctl := .call (.readBlock s.host.cfg.tCancel) :: .awaitCancel :: s.host.ctl } := by
  rw [cancelRxOp, sendCommandOp_of_fits .rxCancel (by simp)]
  rfl

/-- Any block but the echo is logged and dropped, and the next one is read (R229). -/
theorem answerCancel_of_other {code : Byte} (h : code ≠ 0x04) (k : List Task) (s : State) :
    answerCancel code (setCtl k s) = { s with
      log := s.log ++ [.cancelledRx code]
      host.ctl := .call (.readBlock s.host.cfg.tCancel) :: .awaitCancel :: k } := if_neg h

/-- A time-out ends a waiting `CANCEL_RX` as the echo does, and is logged (R229). -/
theorem hostTimeout_cancel {s : State} {k : List Task} (h : s.host.ctl = .awaitCancel :: k) :
    hostTimeout s = { s with host.ctl := k, host.sch.armed := false, log := s.log ++ [.timeout] } := by
  simp [hostTimeout, h, setArmed, logEvent, setCtl]

/-! ## `FLUSH_R` and `FLUSH_T` (R230, R231) -/

theorem flushROp_eq (s : State) :
    flushROp s = { s with
      termOut := s.termOut ++ s.host.sch.rbuf
      host.sch.rbuf := []
      host.sch.rxtrig := false
      host.sch.txtrig := false
      host.sch.tri := .idle
      host.ctl := (if s.host.sch.armed = false ∧ s.host.sch.halt = false then [.call .armRx] else []) ++ s.host.ctl } := by
  rw [flushROp, ite_pushTasks_eq, clearStateOp_r]

theorem flushTEndOp_eq (s : State) :
    flushTEndOp s = { s with
      host.sch.tbuf := []
      host.sch.rxtrig := false
      host.sch.txtrig := false
      host.sch.tri := .idle
      host.ctl := (if s.host.sch.halt = false then [.call .armRx] else []) ++ s.host.ctl } := by
  rw [flushTEndOp, ite_pushTasks_eq, clearStateOp_t]

/-- The framer leaves the configuration registers, the host's work and the last result (R202). -/
theorem kissRun_keeps (buf : Bytes) (s : State) :
    (kissRun buf s).host.cfg = s.host.cfg ∧ (kissRun buf s).host.ctl = s.host.ctl ∧ (kissRun buf s).host.res = s.host.res := by
  obtain ⟨k, -, hrun⟩ := kissRun_eq buf s
  rw [hrun]
  exact ⟨rfl, rfl, rfl⟩

/-- `KISS_PROCESS` is the framer's run with the remainder as its result. -/
theorem kissRun_of_exec_kissProcess {buf : Bytes} {s u : State} (h : exec (.kissProcess buf) s = .next u) :
    { u with host.res := s.host.res } = kissRun buf s := by
  obtain ⟨-, -, hres⟩ := kissRun_keeps buf s
  cases h
  rw [← hres]
  rfl

theorem flushTProcessOp_of_nothing {s : State} (h : (kissRun s.host.sch.tbuf s).host.kiss.rem = []) :
    flushTProcessOp s = flushTEndOp (kissRun s.host.sch.tbuf s) := by
  simp [flushTProcessOp, h]

/-- A remainder is sent behind the keyup delay, both as the framer has left them (R231). -/
theorem flushTProcessOp_of_remainder {s v : State} (hv : v = kissRun s.host.sch.tbuf s) (h : v.host.kiss.rem ≠ []) :
    flushTProcessOp s = { v with
      host.ctl := .sleep v.host.tnc.keyup :: .call (.sendPacket v.host.kiss.rem s.host.cfg.b s.host.cfg.blkDelay) ::
        .flushTSent :: s.host.ctl } := by
  obtain ⟨hcfg, hctl, -⟩ := kissRun_keeps s.host.sch.tbuf s
  rw [← hv] at hcfg hctl
  simp [flushTProcessOp, ← hv, h, hcfg, hctl, pushTasks]

theorem flushTSentOp_of_ok {s : State} (h : s.host.res = .ok) :
    flushTSentOp s = { s with host.ctl := .sleep s.host.tnc.keydown :: .flushTEnd :: s.host.ctl } := by
  simp [flushTSentOp, h, pushTasks]

theorem flushTSentOp_of_timeout {s : State} (h : s.host.res = .timeout) :
    flushTSentOp s = { s with host.ctl := .call .cancelRx :: .flushTEnd :: s.host.ctl } := by
  simp [flushTSentOp, h, pushTasks]

/-- A send that failed otherwise is followed by neither the delay nor the cancel (R231). -/
theorem flushTSentOp_of_failed {s : State} (hok : s.host.res ≠ .ok) (htimeout : s.host.res ≠ .timeout) :
    flushTSentOp s = flushTEndOp s := by
  unfold flushTSentOp
  split
  next h => exact absurd h hok
  next h => exact absurd h htimeout
  next => rfl

theorem flushTOp_of_armed {s : State} (h : s.host.sch.armed = true) :
    flushTOp s = { s with host.ctl := .call .cancelRx :: .flushTProcess :: s.host.ctl } := if_pos h

theorem flushTOp_of_not_armed {s : State} (h : s.host.sch.armed = false) : flushTOp s = flushTProcessOp s :=
  if_neg (by simp [h])

/-! ## `STEP1` and `STEP2` (R221, R222) -/

theorem execStep1_of_waiting {s : State} (harmed : s.host.sch.armed = true) (havail : s.lD2H.avail ≠ []) :
    execStep1 s = .next { s with
      host.sch.stepNo := 1
      host.ctl := .call (.receivePacket s.host.cfg.b s.host.cfg.tFirst s.host.cfg.tInter true) :: .step1Done :: s.host.ctl } :=
  if_pos ⟨harmed, List.length_pos_iff.mpr havail⟩

theorem execStep1_of_not {s : State} (h : s.host.sch.armed = false ∨ s.lD2H.avail = []) : execStep1 s = .next (atStep 1 s) := by
  refine if_neg fun ⟨harmed, havail⟩ => ?_
  rcases h with hnot | hempty
  · exact Bool.false_ne_true (hnot.symm.trans harmed)
  · exact List.length_pos_iff.mp havail hempty

section
variable {s : State} {p : Bytes} (hres : s.host.res = .packet p) (hne : p ≠ [])
include hres hne

/-- A packet that fits is kept and marked, and fires the receive trigger if the terminal side was active (R221). -/
theorem step1DoneOp_of_fits (hfit : s.host.sch.rbuf.length + p.length ≤ s.par.rbufCap) :
    step1DoneOp s = { s with
      host.sch.armed := false
      host.sch.rbuf := s.host.sch.rbuf ++ p
      host.sch.tri := .rxActive
      host.sch.tlast := s.now
      host.sch.rxtrig := s.host.sch.rxtrig || decide (s.host.sch.tri = .txActive) } := by
  simp [step1DoneOp, hres, hne, hfit, appendBuffer_rbuf, setArmed]

theorem step1DoneOp_of_overflow (hover : s.par.rbufCap < s.host.sch.rbuf.length + p.length) :
    step1DoneOp s = { s with
      host.sch.armed := false
      log := s.log ++ [.bufOverflow p.length]
      host.ctl := .call .armRx :: s.host.ctl } := by
  simp [step1DoneOp, hres, hne, Nat.not_le.mpr hover, setArmed, logEvent, pushTasks]

end

theorem step1DoneOp_of_timeout {s : State} (h : s.host.res = .timeout) :
    step1DoneOp s = { s with host.sch.armed := false, host.ctl := .call .cancelRx :: .call .armRx :: s.host.ctl } := by
  simp [step1DoneOp, h, setArmed, pushTasks]

/-- An empty packet is handled as a failed reception (R221). -/
theorem step1DoneOp_of_nothing {s : State} (htimeout : s.host.res ≠ .timeout) (h : ∀ p, s.host.res = .packet p → p = []) :
    step1DoneOp s = { s with host.sch.armed := false, host.ctl := .call .armRx :: s.host.ctl } := by
  unfold step1DoneOp
  dsimp only
  split
  next p hres => exact if_pos (List.isEmpty_iff.mpr (h p hres))
  next hres => exact absurd hres htimeout
  next => rfl

theorem execStep2_of_none {s : State} (h : step2Take s = 0) : execStep2 s = .next (atStep 2 s) :=
  if_neg (Nat.not_lt.mpr h.le)

/-- The bytes taken are marked, and fire the transmit trigger if the radio side was active (R222). -/
theorem execStep2_of_some {s : State} (h : 0 < step2Take s) :
    execStep2 s = .next { s with
      termIn := s.termIn.drop (step2Take s)
      host.sch.stepNo := 2
      host.sch.tbuf := s.host.sch.tbuf ++ s.termIn.take (step2Take s)
      host.sch.tri := .txActive
      host.sch.tlast := s.now
      host.sch.txtrig := s.host.sch.txtrig || decide (s.host.sch.tri = .rxActive) } := by
  refine (if_pos h).trans ?_
  rw [appendBuffer_tbuf]
  rfl

/-! ## `STEP3` to `STEP5` (R223 to R225, R233) -/

theorem execStep3_eq (s : State) : execStep3 s = .next (if step3Fires s then flushROp (atStep 3 s) else atStep 3 s) := rfl

theorem execStep4_eq (s : State) : execStep4 s = .next (if step4Fires s then flushTOp (atStep 4 s) else atStep 4 s) := rfl

theorem execStep5_of_trigger {s : State} (h : s.host.sch.rxtrig = true ∨ s.host.sch.txtrig = true) :
    execStep5 s = .next (atStep 5 s) := by
  refine if_neg fun ⟨hrx, htx⟩ => ?_
  rcases h with hset | hset
  · exact Bool.false_ne_true (hrx.symm.trans hset)
  · exact Bool.false_ne_true (htx.symm.trans hset)

/-- At most one side is flushed: the radio-side flush leaves the tri-state idle, so the test of the terminal side fails after it
(R225, R233). -/
theorem execStep5_of_no_trigger {s : State} (hrx : s.host.sch.rxtrig = false) (htx : s.host.sch.txtrig = false) :
    execStep5 s = .next (if step5FiresR s then flushROp (atStep 5 s)
      else if step5FiresT s then flushTOp (atStep 5 s) else atStep 5 s) := by
  have htests : execStep5 s = .next
      (let u := if step5FiresR s then flushROp (atStep 5 s) else atStep 5 s
       if step5FiresT u then flushTOp u else u) := if_pos ⟨hrx, htx⟩
  rw [htests]
  cases step5FiresR s with
  | false => rfl
  | true =>
    have hidle : (flushROp (atStep 5 s)).host.sch.tri = .idle := by rw [flushROp_eq]
    have hnot : step5FiresT (flushROp (atStep 5 s)) = false := by simp [step5FiresT, hidle]
    simp [hnot]

end Sys2Proof.Machine
end

section
/-! The half-duplex scheduler of `44_scheduler.md`: its loop, its five steps and their helpers. -/

namespace Sys2Proof.Machine

/-- Settles O41, by computation and by whether `HALT` is set. -/
theorem schedulerLoopOrder : Obligations.SchedulerLoopOrder := by
  unfold Obligations.SchedulerLoopOrder
  refine fun s => ⟨⟨_, rfl⟩, rfl, fun hhalt => congrArg _ (if_pos hhalt), fun hhalt => congrArg _ (if_neg ?_)⟩
  simp [hhalt]

/-- Settles O42, by the equations of `STEP1` and of what follows its reception. -/
theorem step1PollsTheRadioSide : Obligations.Step1PollsTheRadioSide := by
  unfold Obligations.Step1PollsTheRadioSide
  exact fun s => ⟨execStep1_of_not, execStep1_of_waiting,
    fun p hres hne => ⟨fun hfit => congrArg _ (step1DoneOp_of_fits hres hne hfit),
      fun hover => congrArg _ (step1DoneOp_of_overflow hres hne hover)⟩,
    fun h => congrArg _ (step1DoneOp_of_timeout h),
    fun htimeout h => congrArg _ (step1DoneOp_of_nothing htimeout h)⟩

/-- Settles O43, by whether `STEP2` takes a byte. -/
theorem step2PollsTheTerminalSide : Obligations.Step2PollsTheTerminalSide := by
  unfold Obligations.Step2PollsTheTerminalSide
  rintro s k rfl
  exact ⟨execStep2_of_none, execStep2_of_some⟩

/-- Settles O44: the flush by `flushROp_eq`, the step by its test (`step3Fires_iff`). -/
theorem step3ForwardsTheRadioBuffer : Obligations.Step3ForwardsTheRadioBuffer := by
  unfold Obligations.Step3ForwardsTheRadioBuffer
  intro s
  rw [← step3Fires_iff]
  have hstep : exec .step3 s = _ := execStep3_eq s
  refine ⟨congrArg _ (flushROp_eq s), fun hfires => ⟨_, ?_, rfl⟩, fun hnot => ?_⟩
  · rw [hstep, if_pos hfires]; rfl
  · rw [hstep, if_neg hnot]; rfl

/-- Settles O45: the step by its test (`step4Fires_iff`), the flush by its parts: the cancel, the framer's run
(`kissRun_of_exec_kissProcess`), what follows the packet, and the end. -/
theorem step4TransmitsTheTerminalBuffer : Obligations.Step4TransmitsTheTerminalBuffer := by
  unfold Obligations.Step4TransmitsTheTerminalBuffer
  intro s
  rw [← step4Fires_iff]
  have hstep : exec .step4 s = _ := execStep4_eq s
  refine ⟨fun hfires => ⟨_, ?_, rfl⟩, fun hnot => ?_, fun harmed => congrArg _ (flushTOp_of_armed harmed),
    fun harmed => ⟨_, congrArg Host.Outcome.next (flushTOp_of_not_armed harmed), rfl⟩, fun u hprocess v hv => ?processed,
    fun h => congrArg _ (flushTSentOp_of_ok h), fun h => congrArg _ (flushTSentOp_of_timeout h),
    fun hok htimeout => ⟨_, congrArg Host.Outcome.next (flushTSentOp_of_failed hok htimeout), rfl⟩,
    congrArg _ (flushTEndOp_eq s)⟩
  · rw [hstep, if_pos hfires]; rfl
  · rw [hstep, if_neg hnot]; rfl
  case processed =>
    have hrun : v = kissRun s.host.sch.tbuf s := hv.trans (kissRun_of_exec_kissProcess hprocess)
    have hkiss : u.host.kiss = v.host.kiss := by rw [hv]
    have htnc : u.host.tnc = v.host.tnc := by rw [hv]
    rw [hkiss, htnc]
    refine ⟨fun hnothing => ⟨flushTEndOp v, congrArg Host.Outcome.next ?_, rfl⟩,
      fun hrem => congrArg _ (flushTProcessOp_of_remainder hrun hrem)⟩
    rw [hrun] at hnothing ⊢
    exact flushTProcessOp_of_nothing hnothing

/-- Settles O46: with no trigger fired, by which side's test holds (`execStep5_of_no_trigger`). -/
theorem step5ForcesAFlush : Obligations.Step5ForcesAFlush := by
  unfold Obligations.Step5ForcesAFlush
  rintro s u rfl
  refine ⟨fun hrx htx htri hwin hrun => ⟨_, ?radio, rfl⟩, fun hrx htx htri hwin hrun => ⟨_, ?terminal, rfl⟩, fun hnone => ?nothing⟩
  case radio =>
    have hfires : step5FiresR s = true := (step5FiresR_iff s).mpr ⟨htri, hwin, hrun⟩
    exact (execStep5_of_no_trigger hrx htx).trans (congrArg _ (if_pos hfires))
  case terminal =>
    have hradio : ¬step5FiresR s = true := by simp [step5FiresR, htri]
    have hfires : step5FiresT s = true := (step5FiresT_iff s).mpr ⟨htri, hwin, hrun⟩
    exact (execStep5_of_no_trigger hrx htx).trans (congrArg _ ((if_neg hradio).trans (if_pos hfires)))
  case nothing =>
    by_cases htrig : s.host.sch.rxtrig = true ∨ s.host.sch.txtrig = true
    · exact execStep5_of_trigger htrig
    obtain ⟨hrx, htx⟩ : s.host.sch.rxtrig = false ∧ s.host.sch.txtrig = false := by simpa using htrig
    have hside : ¬step5FiresR s = true ∧ ¬step5FiresT s = true := by
      rw [step5FiresR_iff, step5FiresT_iff]
      rcases hnone with h | h | htri | ⟨htri, hwin⟩ | ⟨htri, hwin⟩
      · exact absurd (.inl h) htrig
      · exact absurd (.inr h) htrig
      all_goals simp [htri]
      all_goals omega
    obtain ⟨hradio, hterminal⟩ := hside
    exact (execStep5_of_no_trigger hrx htx).trans (congrArg _ ((if_neg hradio).trans (if_neg hterminal)))

/-- Settles O47: the helpers by their equations, what a block does to a waiting `CANCEL_RX` by whether it is the echo. -/
theorem schedulerHelpers : Obligations.SchedulerHelpers := by
  unfold Obligations.SchedulerHelpers
  refine fun s w k => ⟨?elapsed, rfl, rfl, fun hb => ⟨_, ?size, congrArg Host.Outcome.next (armRxOp_eq s)⟩,
    congrArg Host.Outcome.next (cancelRxOp_eq s), fun hctl => ⟨fun p => ?echo, fun code p hcode => ?other, hostTimeout_cancel hctl⟩⟩
  case elapsed =>
    rw [← elapsedW_eq]
    rfl
  case size =>
    rw [BitVec.toNat_ofNat]
    omega
  case echo =>
    rw [exec_decodeReply, hostAnswer_cancel hctl]
    rfl
  case other => rw [exec_decodeReply, hostAnswer_cancel hctl, answerCancel_of_other hcode]

end Sys2Proof.Machine
end

section
/-! SUPPORT. The lines, the handlers and the radio's own steps: what a change of a level leaves of the registers (R292), how a handler's
run ends and when `IRQ_ORDER` lets it start (R293 to R295), and what each step of the reference radio does (R301, R302). -/

namespace Sys2Proof.Machine

/-! ## A change of a line's level (R292, R301) -/

/-- The level follows the FIFOs (R301). -/
theorem thrLevel_iff (s : State) :
    thrLevel s = true ↔ s.par.txThr ≤ s.radio.txFifo.length ∨ s.par.rxThr ≤ s.radio.rxFifo.length := by
  rw [thrLevel, Bool.or_eq_true, decide_eq_true_iff, decide_eq_true_iff]

/-- Each line has a bit of its own when `PKT_BIT` differs from `THR_BIT` (R12, R34). -/
theorem lineBit_inj {p : Params} (hne : p.pktBit ≠ p.thrBit) {x y : Line} : lineBit p y = lineBit p x ↔ y = x := by
  cases x <;> cases y <;> simp [hne, Ne.symm hne]

/-- Only `PIN` and `IFG` can differ after a change of a line's level. -/
theorem setLine_writes_pin_ifg (x : Line) (level : Bool) (s : State) :
    setLine x level s = { s with
      dev.gpio.pin := (setLine x level s).dev.gpio.pin
      dev.gpio.ifg := (setLine x level s).dev.gpio.ifg } := by
  rw [setLine_eq]

/-- No bit of the GPIO registers that belongs to no line is written. -/
theorem setLine_gpioOthers (x : Line) (level : Bool) (s : State) : GpioOthers s (setLine x level s) := by
  have hown (n : Fin 8) (hpkt : n ≠ s.par.pktBit) (hthr : n ≠ s.par.thrBit) : n ≠ lineBit s.par x := by
    cases x
    case pkt => exact hpkt
    case thr => exact hthr
  refine ⟨fun n hpkt hthr => ?_, fun n hpkt hthr => (setLine_ifg_other x level s n (hown n hpkt hthr)).symm, ?_, ?_⟩
  · rw [setLine_pin, bitAt_withBit, if_neg (hown n hpkt hthr)]
  · rw [setLine_ie]; exact otherBits_self _ _
  · rw [setLine_ies]; exact otherBits_self _ _

/-- What the line's own flag is after the change: set on the selected edge, and a set flag stays set. -/
theorem setLine_ifgOf_own (x : Line) (level : Bool) (s : State) :
    ifgOf x (setLine x level s) = (ifgOf x s || (pinOf x s != level && iesOf x s == !level)) := by
  rw [setLine_ifgOf]
  by_cases hedge : pinOf x s ≠ level ∧ iesOf x s = !level
  · simp [hedge]
  · have hnone : (pinOf x s != level && iesOf x s == !level) = false := by simpa using hedge
    rw [if_neg (fun h => hedge h.2), hnone, Bool.or_false]

/-- A line is no part of the radio: its change may come before or after one of the radio. -/
theorem setLine_with_radio (x : Line) (level : Bool) (s : State) (r : Radio) :
    { setLine x level s with radio := r } = setLine x level { s with radio := r } := by
  simp only [setLine_eq]
  rfl

/-! ## The handlers (R294, R295) -/

theorem interruptEvent_pkt (s : State) : interruptEvent .pkt s = if iesOf .pkt s then .pktFall else .pktRise := by
  cases h : iesOf .pkt s <;> simp [interruptEvent, h]

theorem interruptEvent_thr (s : State) : interruptEvent .thr s = if iesOf .thr s then .thrFall else .thrRise := by
  cases h : iesOf .thr s <;> simp [interruptEvent, h]

/-- The packet line's handler writes nothing to the TX FIFO. -/
theorem not_txOverfills_isrPkt (s : State) : ¬TxOverfills (interruptEvent .pkt s) s := by
  rw [interruptEvent_pkt]
  cases iesOf .pkt s <;> exact id

/-- The threshold line's handler overfills the TX FIFO only by a refill: on the falling edge, while transmitting. -/
theorem txOverfills_isrThr_iff (s : State) :
    TxOverfills (interruptEvent .thr s) s ↔
      s.dev.str.mode = .txStreaming ∧ iesOf .thr s = true ∧ ¬fitsTxFifo (txNext s) s := by
  rw [interruptEvent_thr]
  cases h : iesOf .thr s <;> simp [TxOverfills]

theorem ieOf_of_isrEnabled {x : Line} {s : State} (h : isrEnabled x s = true) : ieOf x s = true := by
  simp only [isrEnabled, requested, Bool.and_eq_true] at h
  obtain ⟨_, _, hie⟩ := h
  exact hie

/-- An event that does not overfill the TX FIFO is run to a next state. -/
theorem exists_strStepOp_next {ev : Event} {s : State} (h : ¬TxOverfills ev s) : ∃ u, strStepOp ev s = .next u := by
  cases hrun : strStepOp ev s with
  | next u => exact ⟨u, rfl⟩
  | fault f => exact absurd ((strStepOp_overfill ev s).of_fault hrun).2 h
  | refused r => exact absurd hrun (strStepOp_ne_refused ev s r)

/-- An enabled handler whose event does not overfill the TX FIFO: the event is run with `GIE` = 0, then the flag is cleared and `GIE`
set. -/
theorem takeInterrupt_returns {x : Line} {s : State} (he : isrEnabled x s = true) (hfits : ¬TxOverfills (interruptEvent x s) s) :
    ∃ u, strStepOp (interruptEvent x s) { s with dev.gie := false } = .next u ∧
      takeInterrupt x strStepOp s = .next { u with
        dev.gpio.ifg := withBit u.dev.gpio.ifg (lineBit s.par x) false
        dev.gie := true } := by
  have hentry : ¬TxOverfills (interruptEvent x s) (interruptEntry s) := hfits
  obtain ⟨u, hrun⟩ := exists_strStepOp_next hentry
  obtain ⟨hpar : u.par = s.par, _⟩ := strStepOp_elsewhere hrun
  refine ⟨u, hrun, ?_⟩
  rw [takeInterrupt_of_enabled x _ s he, hrun, ← hpar]
  rfl

/-- An enabled refill that does not fit is the fault of R63. -/
theorem isrThr_overfills {s : State} (he : isrEnabled .thr s = true) (hm : s.dev.str.mode = .txStreaming)
    (hies : iesOf .thr s = true) (hfull : ¬fitsTxFifo (txNext s) s) : exec .isrThr s = .fault .fifoOverfill := by
  have harmed : armedEdge .thr true s = true := armedEdge_of (ieOf_of_isrEnabled he) hies
  have hevent : interruptEvent .thr s = .thrFall := by rw [interruptEvent_thr, if_pos hies]
  have hrun : strStepOp .thrFall (interruptEntry s) = .fault .fifoOverfill :=
    (strStepOp_thrFall (s := interruptEntry s) hm harmed).trans (refill_of_not_fits (interruptEntry s) hfull)
  calc exec .isrThr s
      = andThen (strStepOp (interruptEvent .thr s) (interruptEntry s)) fun u => .next (interruptReturn .thr u) :=
        takeInterrupt_of_enabled .thr strStepOp s he
    _ = .fault .fifoOverfill := by rw [hevent, hrun, andThen_of_fault]

/-! ## Which handler starts (R293) -/

/-- The packet line's handler waits only for an enabled handler of the threshold line that goes first. -/
theorem irqAllowed_pkt (s : State) : irqAllowed .pkt s = !(decide (s.par.irqOrder = .thrFirst) && isrEnabled .thr s) := by
  cases h : s.par.irqOrder <;> simp [irqAllowed, h]

/-- And the other way round. -/
theorem irqAllowed_thr (s : State) : irqAllowed .thr s = !(decide (s.par.irqOrder = .pktFirst) && isrEnabled .pkt s) := by
  cases h : s.par.irqOrder <;> simp [irqAllowed, h]

theorem runTurn_isrPkt (s : State) : runTurn .isrPkt s = if irqAllowed .pkt s then exec .isrPkt s else .next s := rfl

theorem runTurn_isrThr (s : State) : runTurn .isrThr s = if irqAllowed .thr s then exec .isrThr s else .next s := rfl

/-! ## The radio transmits (R301) -/

theorem runTurn_radio_tx {s : State} (h : s.radio.rstate = .tx) : runTurn .radio s = .next (radioTxStep s) := by
  simp [runTurn, radioStep, h]

section
variable {s : State}

theorem radioTxStep_sync (h : s.radio.synced = false) :
    radioTxStep s = setLine .pkt true { s with radio.synced := true } := if_pos h

theorem radioTxStep_byte (hsync : s.radio.synced = true) (hmore : s.radio.sent < s.radio.airLen) {b : Byte} {q : Bytes}
    (hfifo : s.radio.txFifo = b :: q) :
    radioTxStep s = updateThr { s with
      radio.txFifo := q
      radio.sent := s.radio.sent + 1
      radio.aired := s.radio.aired ++ [b] } := by
  simp [radioTxStep, hsync, hmore, hfifo]

theorem radioTxStep_underflow (hsync : s.radio.synced = true) (hmore : s.radio.sent < s.radio.airLen)
    (hfifo : s.radio.txFifo = []) :
    radioTxStep s = setLine .pkt false { s with radio.txUnf := true, radio.rstate := .idle } := by
  have hstep : radioTxStep s = { setLine .pkt false { s with radio.txUnf := true } with radio.rstate := .idle } := by
    simp [radioTxStep, hsync, hmore, hfifo]
  rw [hstep, setLine_with_radio, setLine_radio]

theorem radioTxStep_end (hsync : s.radio.synced = true) (hall : s.radio.airLen ≤ s.radio.sent) :
    radioTxStep s = setLine .pkt false { s with radio.rstate := .idle } := by
  have hstep : radioTxStep s = { setLine .pkt false s with radio.rstate := .idle } := by
    simp [radioTxStep, hsync, Nat.not_lt.mpr hall]
  rw [hstep, setLine_with_radio, setLine_radio]

/-! ## The radio receives (R302) -/

/-- A packet is presented to a listening radio. -/
theorem airPacket_of_listening (hrx : s.radio.rstate = .rx) (hfree : s.radio.inPkt = false) {air : Bytes} (hair : air ≠ [])
    (rssi crclqi : Byte) :
    airPacket air rssi crclqi s = setLine .pkt true { s with radio.inPkt := true, radio.q := air ++ [rssi, crclqi] } := by
  rw [airPacket, if_pos ⟨hrx, hfree, hair⟩, setLine_with_radio, setLine_radio]

theorem airPacket_of_not_rx (h : s.radio.rstate ≠ .rx) (air : Bytes) (rssi crclqi : Byte) : airPacket air rssi crclqi s = s :=
  if_neg fun hlisten => h hlisten.1

theorem runTurn_radio_rx (hrx : s.radio.rstate = .rx) (hpkt : s.radio.inPkt = true) :
    runTurn .radio s = .next (radioRxStep s) := by
  simp [runTurn, radioStep, hrx, hpkt]

theorem radioRxStep_byte {b : Byte} {q : Bytes} (hq : s.radio.q = b :: q) (hroom : s.radio.rxFifo.length < s.par.fifoSize) :
    radioRxStep s = updateThr { s with radio.rxFifo := s.radio.rxFifo ++ [b], radio.q := q } := by
  simp [radioRxStep, hq, rxCount, hroom]

theorem radioRxStep_overflow {b : Byte} {q : Bytes} (hq : s.radio.q = b :: q) (hfull : s.par.fifoSize ≤ s.radio.rxFifo.length) :
    radioRxStep s = { s with radio.rxOvf := true, radio.q := [] } := by
  simp [radioRxStep, hq, rxCount, Nat.not_lt.mpr hfull]

theorem radioRxStep_end (hq : s.radio.q = []) : radioRxStep s = setLine .pkt false { s with radio.rstate := .idle } := by
  have hstep : radioRxStep s = { setLine .pkt false s with radio.rstate := .idle } := by
    simp [radioRxStep, hq]
  rw [hstep, setLine_with_radio, setLine_radio]

end

end Sys2Proof.Machine
end

section
/-! The interrupts and the radio of `60_exceptions.md`: the lines, the two handlers and their order, the reference radio's own steps. -/

namespace Sys2Proof.Machine

/-- Settles O26: all a change of a level writes is `PIN` and `IFG`, of `IFG` only the line's own bit (`setLine_ifgOf_own`). -/
theorem selectedEdgeSetsTheFlag : Obligations.SelectedEdgeSetsTheFlag := by
  unfold Obligations.SelectedEdgeSetsTheFlag
  refine ⟨fun s => ⟨thrLevel_iff s, updateThr_eq s⟩, ?_⟩
  rintro x level s hne t rfl
  refine ⟨setLine_writes_pin_ifg x level s, ?own, setLine_ifgOf_own x level s, fun y hy => ?other, setLine_gpioOthers x level s⟩
  case own => rw [setLine_pinOf, if_pos rfl]
  case other =>
    have hbit : lineBit s.par y ≠ lineBit s.par x := mt (lineBit_inj hne).mp hy
    exact ⟨by rw [setLine_pinOf, if_neg hbit], by rw [setLine_ifgOf, if_neg fun h => hbit h.1]⟩

/-- Settles O27: an enabled handler returns unless its event overfills the TX FIFO (`takeInterrupt_returns`), which only a refill can;
whether it starts is `irqAllowed_pkt` and `irqAllowed_thr`. -/
theorem handlersRunTheSelectedEdge : Obligations.HandlersRunTheSelectedEdge := by
  unfold Obligations.HandlersRunTheSelectedEdge
  refine fun s => ⟨fun he => ?pkt, takeInterrupt_of_not .pkt strStepOp s, fun he hok => ?thr, isrThr_overfills,
    takeInterrupt_of_not .thr strStepOp s, fun hpkt hthr => ?order⟩
  case pkt =>
    rw [← interruptEvent_pkt]
    exact takeInterrupt_returns he (not_txOverfills_isrPkt s)
  case thr =>
    have hfits : ¬TxOverfills (interruptEvent .thr s) s := by
      rw [txOverfills_isrThr_iff]
      rintro ⟨hm, hies, hfull⟩
      rcases hok with h | h | h
      · exact h hm
      · exact absurd (hies.symm.trans h) (by decide)
      · exact hfull h
    rw [← interruptEvent_thr]
    exact takeInterrupt_returns he hfits
  case order =>
    rw [runTurn_isrPkt, runTurn_isrThr, irqAllowed_pkt, irqAllowed_thr, hpkt, hthr]
    exact ⟨fun hfirst => by simp [hfirst], fun hfirst => by simp [hfirst], fun hany => by simp [hany]⟩

/-- Settles O59: the steps while it transmits, a packet from the air, the steps while it receives. -/
theorem radioMovesByteByByte : Obligations.RadioMovesByteByByte := by
  unfold Obligations.RadioMovesByteByByte
  refine ⟨fun s htx => ?transmits, fun s air rssi crclqi => ⟨fun hrx hfree hair => ?_, fun hrx => ?_, fun hrx hpkt => ?receives⟩⟩
  case transmits =>
    rw [runTurn_radio_tx htx]
    exact ⟨fun hsync => congrArg _ (radioTxStep_sync hsync),
      fun hsync hmore _ _ hfifo => congrArg _ (radioTxStep_byte hsync hmore hfifo),
      fun hsync hmore hfifo => congrArg _ (radioTxStep_underflow hsync hmore hfifo),
      fun hsync hall => congrArg _ (radioTxStep_end hsync hall)⟩
  · exact congrArg _ (airPacket_of_listening hrx hfree hair rssi crclqi)
  · exact congrArg _ (airPacket_of_not_rx hrx air rssi crclqi)
  case receives =>
    rw [runTurn_radio_rx hrx hpkt]
    exact ⟨fun _ _ hq hroom => congrArg _ (radioRxStep_byte hq hroom),
      fun _ _ hq hfull => congrArg _ (radioRxStep_overflow hq hfull), fun hq => congrArg _ (radioRxStep_end hq)⟩

end Sys2Proof.Machine
end
